-- ==== Sys2Proof/Word.lean ====
section
/-! DEFINITION. The widths of RLNC-CORE (00_scope.md R7): bytes (field elements, buffer contents), 16-bit
sizes and 32-bit registers, command words and generation ids. All values are unsigned. -/

namespace Sys2Proof

/-- A byte, 8 bits; also a field element (00_scope.md R7). -/
abbrev Byte := BitVec 8

/-- A 16-bit size: enc.N, enc.P, dec.N, dec.P and the two u16 header fields (10_state.md R33, R39). -/
abbrev Half := BitVec 16

/-- A 32-bit host register, command word or generation id (10_state.md R22, R34, R40). -/
abbrev Word := BitVec 32

end Sys2Proof
end

