-- ==== Sys2Proof/Syntax.lean ====
section
/-! DEFINITION. The 18 commands of RLNC-CORE (30_encoding.md R93), one constructor each. -/

namespace Sys2Proof

/-- A command (30_encoding.md R91 to R93). `a` and `b` are field elements; `idx` is an index, a slot number for the
ENC commands and a decoded-packet number for DEC_GET, which a command word can spell when it is below 2^16. -/
inductive Instr where
  /-- FF_ADD, 40_finite_field.md R130. -/
  | ffAdd (a b : Byte)
  /-- FF_SUB, R131. -/
  | ffSub (a b : Byte)
  /-- FF_MUL, R132. -/
  | ffMul (a b : Byte)
  /-- FF_DIV, R133: dividend a, divisor b. -/
  | ffDiv (a b : Byte)
  /-- FF_INV, R134. -/
  | ffInv (a : Byte)
  /-- ENC_INIT, 41_encoder.md R151. -/
  | encInit
  /-- ENC_ADD, R153. -/
  | encAdd (idx : Nat)
  /-- ENC_COMPLETE, R154. -/
  | encComplete
  /-- ENC_GEN_CODED, R157. -/
  | encGenCoded
  /-- ENC_GEN_UNCODED, R160. -/
  | encGenUncoded (idx : Nat)
  /-- ENC_NEXT, R161. -/
  | encNext
  /-- DEC_INIT, 42_decoder.md R188. -/
  | decInit
  /-- DEC_PROCESS, R184. -/
  | decProcess
  /-- DEC_CAN_DECODE, R189. -/
  | decCanDecode
  /-- DEC_RANK, R190. -/
  | decRank
  /-- DEC_GET, R197. -/
  | decGet (idx : Nat)
  /-- DEC_NEXT, R198. -/
  | decNext
  /-- DEC_STATE, R191. -/
  | decState
deriving DecidableEq, Repr

end Sys2Proof
end

