-- ==== Sys2Proof/WellFormed.lean ====
section
/-! DEFINITION. Which commands a command word can spell: the operand ranges of 30_encoding.md R92 and R99. -/

namespace Sys2Proof

/-- An index operand fits its 16 bits (30_encoding.md R92, R99: "0 <= idx <= 65535; an assembler refuses an operand
outside its range"). -/
def idxFits (idx : Nat) : Bool := decide (idx < 65536)

/-- A command a word can spell. The field operands a and b are bytes by their type, so only an index can be out of
range. -/
def Instr.wellFormed : Instr → Bool
  | .ffAdd _ _ => true
  | .ffSub _ _ => true
  | .ffMul _ _ => true
  | .ffDiv _ _ => true
  | .ffInv _ => true
  | .encInit => true
  | .encAdd idx => idxFits idx
  | .encComplete => true
  | .encGenCoded => true
  | .encGenUncoded idx => idxFits idx
  | .encNext => true
  | .decInit => true
  | .decProcess => true
  | .decCanDecode => true
  | .decRank => true
  | .decGet idx => idxFits idx
  | .decNext => true
  | .decState => true

end Sys2Proof
end

