-- ==== Sys2Proof/Decode.lean ====
section
/-! DEFINITION. The command encoding (30_encoding.md R90 to R97): the opcode map as a table of rows with match and
mask, the total decoder that rejects a word by name, the encoder, and the two functions through which the host lays
out a table row's word. -/

namespace Sys2Proof

/-- Why a word is no command (30_encoding.md R96). Both reasons have the one effect of R96. -/
inductive IllegalWord where
  /-- bits [31:24] are none of the 18 opcodes of R93 -/
  | noSuchOpcode
  /-- a field that the command's format marks zero is not 0 -/
  | reservedNotZero
deriving DecidableEq, Repr

/-- One row of the opcode map R93: the word's opcode, its match and mask, and the command it selects from the
operands a, b and idx. -/
structure OpcodeRow where
  op : Byte
  pattern : Word
  mask : Word
  build : Byte → Byte → Nat → Instr

/-- The rows of the FF unit (30_encoding.md R93, formats F2 and F1). -/
def ffRows : List OpcodeRow :=
  [ ⟨0x01#8, 0x01000000#32, 0xFF0000FF#32, fun a b _ => .ffAdd a b⟩,
    ⟨0x02#8, 0x02000000#32, 0xFF0000FF#32, fun a b _ => .ffSub a b⟩,
    ⟨0x03#8, 0x03000000#32, 0xFF0000FF#32, fun a b _ => .ffMul a b⟩,
    ⟨0x04#8, 0x04000000#32, 0xFF0000FF#32, fun a b _ => .ffDiv a b⟩,
    ⟨0x05#8, 0x05000000#32, 0xFF00FFFF#32, fun a _ _ => .ffInv a⟩ ]

/-- The rows of the ENC unit (30_encoding.md R93, formats Z and S). -/
def encRows : List OpcodeRow :=
  [ ⟨0x10#8, 0x10000000#32, 0xFFFFFFFF#32, fun _ _ _ => .encInit⟩,
    ⟨0x11#8, 0x11000000#32, 0xFFFF0000#32, fun _ _ idx => .encAdd idx⟩,
    ⟨0x12#8, 0x12000000#32, 0xFFFFFFFF#32, fun _ _ _ => .encComplete⟩,
    ⟨0x13#8, 0x13000000#32, 0xFFFFFFFF#32, fun _ _ _ => .encGenCoded⟩,
    ⟨0x14#8, 0x14000000#32, 0xFFFF0000#32, fun _ _ idx => .encGenUncoded idx⟩,
    ⟨0x15#8, 0x15000000#32, 0xFFFFFFFF#32, fun _ _ _ => .encNext⟩ ]

/-- The rows of the DEC unit (30_encoding.md R93, formats Z and S). -/
def decRows : List OpcodeRow :=
  [ ⟨0x20#8, 0x20000000#32, 0xFFFFFFFF#32, fun _ _ _ => .decInit⟩,
    ⟨0x21#8, 0x21000000#32, 0xFFFFFFFF#32, fun _ _ _ => .decProcess⟩,
    ⟨0x22#8, 0x22000000#32, 0xFFFFFFFF#32, fun _ _ _ => .decCanDecode⟩,
    ⟨0x23#8, 0x23000000#32, 0xFFFFFFFF#32, fun _ _ _ => .decRank⟩,
    ⟨0x24#8, 0x24000000#32, 0xFFFF0000#32, fun _ _ idx => .decGet idx⟩,
    ⟨0x25#8, 0x25000000#32, 0xFFFFFFFF#32, fun _ _ _ => .decNext⟩,
    ⟨0x26#8, 0x26000000#32, 0xFFFFFFFF#32, fun _ _ _ => .decState⟩ ]

/-- The opcode map of 30_encoding.md R93. -/
def opcodeRows : List OpcodeRow := ffRows ++ encRows ++ decRows

/-- The opcode field, bits [31:24] (30_encoding.md R91). -/
def opField (w : Word) : Byte := w.extractLsb' 24 8

/-- The operand a, bits [23:16] (30_encoding.md R92). -/
def aField (w : Word) : Byte := w.extractLsb' 16 8

/-- The operand b, bits [15:8] (30_encoding.md R92). -/
def bField (w : Word) : Byte := w.extractLsb' 8 8

/-- The operand idx, bits [15:0], as the unsigned number it spells (30_encoding.md R92). -/
def idxField (w : Word) : Nat := (w.extractLsb' 0 16).toNat

/-- The decoder of 30_encoding.md R95: total, and every word that is no command is rejected by name. -/
def decode (w : Word) : Except IllegalWord Instr :=
  match opcodeRows.find? (fun row => row.op == opField w) with
  | none => .error .noSuchOpcode
  | some row =>
    if w &&& row.mask = row.pattern then .ok (row.build (aField w) (bField w) (idxField w))
    else .error .reservedNotZero

/-- A word of format F2: op, a, b, zero (30_encoding.md R91). -/
def wordF2 (op a b : Byte) : Word := op ++ a ++ b ++ 0#8

/-- A word of format F1: op, a, zero (30_encoding.md R91). -/
def wordF1 (op a : Byte) : Word := op ++ a ++ 0#16

/-- A word of format S: op, zero, idx (30_encoding.md R91). -/
def wordS (op : Byte) (idx : Nat) : Word := op ++ 0#8 ++ BitVec.ofNat 16 idx

/-- A word of format Z: op, zero (30_encoding.md R91). -/
def wordZ (op : Byte) : Word := op ++ 0#24

/-- The command word of a well-formed command (30_encoding.md R93, R99). -/
def encode : Instr → Word
  | .ffAdd a b => wordF2 0x01#8 a b
  | .ffSub a b => wordF2 0x02#8 a b
  | .ffMul a b => wordF2 0x03#8 a b
  | .ffDiv a b => wordF2 0x04#8 a b
  | .ffInv a => wordF1 0x05#8 a
  | .encInit => wordZ 0x10#8
  | .encAdd idx => wordS 0x11#8 idx
  | .encComplete => wordZ 0x12#8
  | .encGenCoded => wordZ 0x13#8
  | .encGenUncoded idx => wordS 0x14#8 idx
  | .encNext => wordZ 0x15#8
  | .decInit => wordZ 0x20#8
  | .decProcess => wordZ 0x21#8
  | .decCanDecode => wordZ 0x22#8
  | .decRank => wordZ 0x23#8
  | .decGet idx => wordS 0x24#8 idx
  | .decNext => wordZ 0x25#8
  | .decState => wordZ 0x26#8

/-- The mnemonic a host script writes (30_encoding.md R99). -/
def Instr.mnemonic : Instr → String
  | .ffAdd _ _ => "ff.add"
  | .ffSub _ _ => "ff.sub"
  | .ffMul _ _ => "ff.mul"
  | .ffDiv _ _ => "ff.div"
  | .ffInv _ => "ff.inv"
  | .encInit => "enc.init"
  | .encAdd _ => "enc.add"
  | .encComplete => "enc.complete"
  | .encGenCoded => "enc.coded"
  | .encGenUncoded _ => "enc.uncoded"
  | .encNext => "enc.next"
  | .decInit => "dec.init"
  | .decProcess => "dec.process"
  | .decCanDecode => "dec.can"
  | .decRank => "dec.rank"
  | .decGet _ => "dec.get"
  | .decNext => "dec.next"
  | .decState => "dec.state"

/-- The command word of an opcode-table row's bits: the low `nbits` bits of `w`, every bit above them zero (a command
is one 32-bit word, 30_encoding.md R90). -/
def tableWord (nbits w : Nat) : Word := BitVec.ofNat 32 (w % 2 ^ nbits)

/-- The command the decoder reads from an opcode-table row's bits, none where it rejects them. -/
def decodeTableWord (nbits w : Nat) : Option Instr :=
  match decode (tableWord nbits w) with
  | .ok i => some i
  | .error _ => none

end Sys2Proof
end

