-- ==== Sys2Proof/Config.lean ====
section
/-! DEFINITION. What the build fixes and what the spec leaves free: the sizes that State.reset's CAP register
holds, and the free values (constants with no body, so that no proof can see a value of theirs). -/

namespace Sys2Proof

/-- The byte spaces of the core that hold state (20_memory.md R60); LOG and EXP are ROMs. -/
inductive Space where
  | ibuf
  | obuf
  | encBuf
  | decC
  | decY
  | decOut
deriving DecidableEq, Repr

namespace Config

/-- N_MAX of the build that `State.reset` describes (00_scope.md R6: a model argument). DESIGN CHOICE (log entry 1):
the value of the spec's test vectors. The machine reads N_MAX from reg.CAP, never from here, so a statement about
every state is a statement about every build. -/
def nMax : Half := 4#16

/-- P_MAX of the build that `State.reset` describes (00_scope.md R6). DESIGN CHOICE (log entry 1). -/
def pMax : Half := 16#16

/-- FREE VALUE (93_implementation_defined.md U1 to U3; log entry 6): the byte at an index of a space that nothing has
written since the reset with the given number. -/
opaque powerUpByte : Nat → Space → Nat → Byte

/-- FREE VALUE (93_implementation_defined.md U5, 10_state.md R50; log entry 5): the k-th draw of the RAND oracle, less
one; 0..254 stands for the nonzero elements 1..255. -/
opaque randDraw : Nat → Fin 255

/-- FREE VALUE (93_implementation_defined.md U4, 40_finite_field.md R121; log entry 7): the entry LOG[0], which no rule
reads. -/
opaque logZero : Byte

end Config
end Sys2Proof
end

