-- ==== Sys2Proof/Machine/State.lean ====
section
/-! DEFINITION. The state of RLNC-CORE as plain data (10_state.md), the reasons a step could stop, and reset. -/

namespace Sys2Proof.Machine

/-- Where the bytes of a space that no entry lists come from. -/
inductive Origin where
  /-- unspecified since the reset with this number (10_state.md R51; free values, log entry 6) -/
  | powerUp (epoch : Nat) (space : Space)
  /-- zeroed as a whole by an INIT or NEXT command (41_encoder.md R151, R161; 42_decoder.md R188, R198) -/
  | zeroed
deriving DecidableEq, Repr

/-- One byte space (20_memory.md R60): the listed bytes in strictly rising order of index, and what an unlisted index
reads as. In a zeroed space no entry is 0. -/
structure Memory where
  origin : Origin
  cells : List Host.Cell
deriving DecidableEq, Repr

/-- The decoder's state tag (10_state.md R45). -/
inductive DecState where
  | collecting
  | decodable
  | decoded
deriving DecidableEq, Repr

/-- The status codes (60_exceptions.md R222). -/
inductive Status where
  | ok
  | errIllegal
  | errNotInit
  | errParam
  | ffZero
  | encFull
  | encDup
  | encRange
  | encEmpty
  | encAbsent
  | decDone
  | decWrongGen
  | decNoRow
  | decMalformed
  | decNotDecoded
  | decRange
  | decSingular
deriving DecidableEq, Repr

/-- The ENC unit (10_state.md R33 to R36): enc.N, enc.P, enc.gen, enc.valid (one bit a slot), enc.buf. -/
structure EncUnit where
  n : Half
  p : Half
  gen : Word
  valid : List Bool
  buf : Memory
deriving DecidableEq, Repr

/-- The DEC unit (10_state.md R39 to R46): dec.N, dec.P, dec.gen, dec.C, dec.Y, dec.rows, dec.rank, dec.state,
dec.out. -/
structure DecUnit where
  n : Half
  p : Half
  gen : Word
  c : Memory
  y : Memory
  rows : Nat
  rank : Nat
  state : DecState
  out : Memory
deriving DecidableEq, Repr

/-- A host access (10_state.md R23). Register numbers and buffer indices are any numbers. -/
inductive HostAccess where
  | writeReg (n : Nat) (v : Word)
  | readReg (n : Nat)
  | writeIBuf (i : Nat) (b : Byte)
  | readIBuf (i : Nat)
  | readOBuf (i : Nat)
deriving DecidableEq, Repr

/-- What the outside can do to the core: an access (10_state.md R23) or the reset input (70_reset_and_hazards.md R250,
between steps only, R251). -/
inductive HostEvent where
  | access (a : HostAccess)
  | reset
deriving DecidableEq, Repr

/-- What an access returns to the host (10_state.md R23): nothing for a write, a 32-bit register, or a buffer byte. -/
inductive HostReply where
  | nothing
  | word (v : Word)
  | byte (b : Byte)
deriving DecidableEq, Repr

/-- The whole machine (10_state.md R22, R33 to R49). The last four fields are the model's own. -/
structure State where
  /-- reg.ARG (R25) -/
  arg : Word
  /-- reg.ILEN (R26) -/
  ilen : Word
  /-- reg.STATUS[7:0] (R27); [31:8] read 0 -/
  status : Byte
  /-- reg.RESULT (R28) -/
  result : Word
  /-- reg.OLEN (R30) -/
  olen : Word
  /-- reg.ERR[0], FFZ (R29) -/
  errFfz : Bool
  /-- reg.ERR[1], SING (R29) -/
  errSing : Bool
  /-- reg.CAP (R31): [15:0] N_MAX, [31:16] P_MAX -/
  cap : Word
  /-- IBUF (R48) -/
  ibuf : Memory
  /-- OBUF (R49) -/
  obuf : Memory
  /-- the ENC unit -/
  enc : EncUnit
  /-- the DEC unit -/
  dec : DecUnit
  /-- the host events still to come, oldest first (log entry 2) -/
  pending : List HostEvent
  /-- what the last access returned (log entry 4) -/
  reply : HostReply
  /-- how many RAND draws have been taken (log entry 5) -/
  drawn : Nat
  /-- how many resets have happened (log entry 8) -/
  resets : Nat
deriving DecidableEq, Repr

/-- Why a step stops with a fault: never. No rule of the spec stops the machine (60_exceptions.md R220: "No command
traps"; every failure is a status code and the core is ready for the next command), so the type has no constructor
(log entry 9). -/
inductive Fault where
deriving DecidableEq, Repr

/-- Why a step is refused. -/
inductive Refusal where
  /-- An instruction that has no meaning yet, by its mnemonic: raised by exec's arm alone, safe. Every arm has its
  meaning, so nothing raises it. -/
  | notModelled (mnemonic : String)
deriving DecidableEq, Repr

/-- A byte space right after a reset: any bytes (10_state.md R51). -/
def Memory.unspecified (epoch : Nat) (space : Space) : Memory :=
  { origin := .powerUp epoch space, cells := [] }

/-- The state the reset input leaves (10_state.md R51, 70_reset_and_hazards.md R250) on a core whose CAP register
holds `cap`; `epoch` numbers the reset, so that the unspecified bytes are fresh free values. -/
def State.afterReset (cap : Word) (epoch : Nat) : State :=
  { arg := 0#32
    ilen := 0#32
    status := 0#8
    result := 0#32
    olen := 0#32
    errFfz := false
    errSing := false
    cap := cap
    ibuf := Memory.unspecified epoch .ibuf
    obuf := Memory.unspecified epoch .obuf
    enc :=
      { n := 0#16
        p := 0#16
        gen := 0#32
        valid := List.replicate (cap.extractLsb' 0 16).toNat false
        buf := Memory.unspecified epoch .encBuf }
    dec :=
      { n := 0#16
        p := 0#16
        gen := 0#32
        c := Memory.unspecified epoch .decC
        y := Memory.unspecified epoch .decY
        rows := 0
        rank := 0
        state := .collecting
        out := Memory.unspecified epoch .decOut }
    pending := []
    reply := .nothing
    drawn := 0
    resets := epoch }

/-- The machine right after reset (10_state.md R51), for the build of Config (log entry 1), with no host event
waiting. -/
def State.reset : State := State.afterReset (Config.pMax ++ Config.nMax) 0

end Sys2Proof.Machine
end

