-- ==== Sys2Proof/Machine/Ops.lean ====
section
/-! DEFINITION. The shared operations over memories and registers, and how a command ends: `ok`, and `fail`, the one
operation through which every failure goes (00_scope.md R8, 60_exceptions.md R220). -/

namespace Sys2Proof.Machine

/-! Byte spaces. -/

/-- What an index that no entry lists reads as: a free value until the space is zeroed, then 0. -/
def unlisted (o : Origin) (a : Nat) : Byte :=
  match o with
  | .powerUp epoch space => Config.powerUpByte epoch space a
  | .zeroed => 0#8

/-- The entry listed at an index, if any. -/
def cellsGet : List Host.Cell → Nat → Option Byte
  | [], _ => none
  | (k, v) :: rest, a => if a = k then some v else cellsGet rest a

/-- The list with the entry at an index set, in rising order. -/
def cellsPut : List Host.Cell → Nat → Byte → List Host.Cell
  | [], a, b => [(a, b)]
  | (k, v) :: rest, a, b =>
    if a < k then (a, b) :: (k, v) :: rest
    else if a = k then (a, b) :: rest
    else (k, v) :: cellsPut rest a b

/-- The list without any entry at an index. -/
def cellsDrop : List Host.Cell → Nat → List Host.Cell
  | [], _ => []
  | (k, v) :: rest, a => if a = k then cellsDrop rest a else (k, v) :: cellsDrop rest a

/-- The byte at an index of a space. -/
def Memory.read (m : Memory) (a : Nat) : Byte :=
  match cellsGet m.cells a with
  | some v => v
  | none => unlisted m.origin a

/-- The space with one byte written; writing 0 to a zeroed space removes the entry. -/
def Memory.write (m : Memory) (a : Nat) (b : Byte) : Memory :=
  if m.origin = .zeroed ∧ b = 0#8 then { m with cells := cellsDrop m.cells a }
  else { m with cells := cellsPut m.cells a b }

/-- MemRead (00_scope.md R8): n bytes from index a, lowest index first. -/
def Memory.readBytes (m : Memory) (a n : Nat) : List Byte :=
  (List.range n).map fun j => m.read (a + j)

/-- MemWrite (00_scope.md R8): bytes from index a on, lowest index first. -/
def Memory.writeBytes (m : Memory) (a : Nat) : List Byte → Memory
  | [] => m
  | b :: bs => (m.write a b).writeBytes (a + 1) bs

/-- Every byte of a space set to 0 (41_encoder.md R151, R161; 42_decoder.md R188, R198). -/
def Memory.zero : Memory := { origin := .zeroed, cells := [] }

/-- Row r of a space whose rows are `stride` bytes wide: its first n bytes (20_memory.md R60; log entry 12). -/
def Memory.row (m : Memory) (stride r n : Nat) : List Byte := m.readBytes (r * stride) n

/-- A space with bytes written from the start of row r. -/
def Memory.writeRow (m : Memory) (stride r : Nat) (bytes : List Byte) : Memory :=
  m.writeBytes (r * stride) bytes

/-- Rows 0..rows-1 of a space, the first `cols` bytes of each. -/
def Memory.matrix (m : Memory) (stride rows cols : Nat) : List (List Byte) :=
  (List.range rows).map fun r => m.row stride r cols

/-- A space with rows written one after the other from row r on. -/
def Memory.writeRows (m : Memory) (stride r : Nat) : List (List Byte) → Memory
  | [] => m
  | bytes :: rest => (m.writeRow stride r bytes).writeRows stride (r + 1) rest

/-- The listed indices rise strictly. -/
def cellsRising : List Host.Cell → Bool
  | [] => true
  | [_] => true
  | (a, _) :: (b, w) :: rest => decide (a < b) && cellsRising ((b, w) :: rest)

/-- The canonical form: rising indices, and in a zeroed space no entry equal to what an unlisted index reads as. -/
def Memory.wf (m : Memory) : Bool :=
  cellsRising m.cells && (decide (m.origin ≠ .zeroed) || m.cells.all fun cell => cell.2 != 0#8)

/-! Sizes. -/

/-- N_MAX, CAP[15:0] (10_state.md R31). -/
def State.nMax (s : State) : Nat := (s.cap.extractLsb' 0 16).toNat

/-- P_MAX, CAP[31:16] (10_state.md R31). -/
def State.pMax (s : State) : Nat := (s.cap.extractLsb' 16 16).toNat

/-- BUF_CAP, the capacity of IBUF and of OBUF (00_scope.md R6). -/
def State.bufCap (s : State) : Nat := 8 + s.nMax + s.pMax

/-! Status codes. -/

/-- The value of a status code (60_exceptions.md R222). -/
def Status.code : Status → Byte
  | .ok => 0x00#8
  | .errIllegal => 0x01#8
  | .errNotInit => 0x02#8
  | .errParam => 0x03#8
  | .ffZero => 0x10#8
  | .encFull => 0x20#8
  | .encDup => 0x21#8
  | .encRange => 0x22#8
  | .encEmpty => 0x23#8
  | .encAbsent => 0x24#8
  | .decDone => 0x30#8
  | .decWrongGen => 0x31#8
  | .decNoRow => 0x32#8
  | .decMalformed => 0x33#8
  | .decNotDecoded => 0x34#8
  | .decRange => 0x35#8
  | .decSingular => 0x36#8

/-! How a command ends. -/

/-- ok(v) (00_scope.md R8): STATUS <- 0x00, RESULT <- v. -/
def ok (v : Word) (s : State) : State :=
  { s with status := Status.ok.code, result := v }

/-- fail(code) (00_scope.md R8, 60_exceptions.md R220): STATUS <- code, RESULT <- 0, nothing else. -/
def fail (c : Status) (s : State) : State :=
  { s with status := c.code, result := 0#32 }

/-- A failing producing command: OLEN <- 0, then fail(code) (60_exceptions.md R221, D34). OBUF is left as it is. -/
def failProducing (c : Status) (s : State) : State :=
  fail c { s with olen := 0#32 }

/-! The unit's own results. -/

/-- A Boolean result: 1 or 0 (10_state.md R28). -/
def boolWord (b : Bool) : Word := if b then 1#32 else 0#32

/-- The tag of a decoder state (10_state.md R45). -/
def DecState.tag : DecState → Word
  | .collecting => 0#32
  | .decodable => 1#32
  | .decoded => 2#32

/-- Whether an encoder slot holds a packet (10_state.md R35). -/
def EncUnit.slotValid (e : EncUnit) (i : Nat) : Bool := e.valid.getD i false

/-- enc.count, the number of set bits of enc.valid[0..enc.N-1] (10_state.md R37). -/
def EncUnit.count (e : EncUnit) : Nat := (e.valid.take e.n.toNat).count true

end Sys2Proof.Machine
end

