-- ==== Sys2Proof/Machine/Flags.lean ====
section
/-! DEFINITION. The two sticky flags of ERR (10_state.md R29) and the eight host registers as the host reads and
stores them (10_state.md R22, R23). There are no condition codes. -/

namespace Sys2Proof.Machine

/-- ERR[0] <- 1, FFZ (40_finite_field.md R133, R134). -/
def setFfz (s : State) : State := { s with errFfz := true }

/-- ERR[1] <- 1, SING (42_decoder.md R193). -/
def setSing (s : State) : State := { s with errSing := true }

/-- reg.ERR as the host reads it: [0] FFZ, [1] SING, [31:2] zero (10_state.md R22, R29). -/
def State.errWord (s : State) : Word := 0#30 ++ BitVec.ofBool s.errSing ++ BitVec.ofBool s.errFfz

/-- ReadReg(n) (10_state.md R22, R23): CMD and any number above 7 read 0. -/
def State.readReg (s : State) (n : Nat) : Word :=
  match n with
  | 0 => 0#32
  | 1 => s.arg
  | 2 => s.ilen
  | 3 => s.status.zeroExtend 32
  | 4 => s.result
  | 5 => s.olen
  | 6 => s.errWord
  | 7 => s.cap
  | _ => 0#32

/-- WriteReg(n, v) for a register other than CMD (10_state.md R23): ARG and ILEN are storage, the rest ignore
writes. -/
def State.storeReg (s : State) (n : Nat) (v : Word) : State :=
  match n with
  | 1 => { s with arg := v }
  | 2 => { s with ilen := v }
  | _ => s

end Sys2Proof.Machine
end

