-- ==== Sys2Proof/Machine/Field.lean ====
section
/-! DEFINITION. The FF unit (40_finite_field.md): the LOG and EXP ROMs as section 6 prints them, the five functions of
GF(2^8), and the five FF commands. -/

namespace Sys2Proof.Machine

/-- Rows 0x0_ to 0x7_ of the table EXP (40_finite_field.md R122 and section 6); the row is the high digit of the index, the
column the low digit. -/
def expRowsLow : List (List Byte) :=
  [
    [0x01#8, 0x02#8, 0x04#8, 0x08#8, 0x10#8, 0x20#8, 0x40#8, 0x80#8, 0x1D#8, 0x3A#8, 0x74#8, 0xE8#8, 0xCD#8, 0x87#8, 0x13#8, 0x26#8],
    [0x4C#8, 0x98#8, 0x2D#8, 0x5A#8, 0xB4#8, 0x75#8, 0xEA#8, 0xC9#8, 0x8F#8, 0x03#8, 0x06#8, 0x0C#8, 0x18#8, 0x30#8, 0x60#8, 0xC0#8],
    [0x9D#8, 0x27#8, 0x4E#8, 0x9C#8, 0x25#8, 0x4A#8, 0x94#8, 0x35#8, 0x6A#8, 0xD4#8, 0xB5#8, 0x77#8, 0xEE#8, 0xC1#8, 0x9F#8, 0x23#8],
    [0x46#8, 0x8C#8, 0x05#8, 0x0A#8, 0x14#8, 0x28#8, 0x50#8, 0xA0#8, 0x5D#8, 0xBA#8, 0x69#8, 0xD2#8, 0xB9#8, 0x6F#8, 0xDE#8, 0xA1#8],
    [0x5F#8, 0xBE#8, 0x61#8, 0xC2#8, 0x99#8, 0x2F#8, 0x5E#8, 0xBC#8, 0x65#8, 0xCA#8, 0x89#8, 0x0F#8, 0x1E#8, 0x3C#8, 0x78#8, 0xF0#8],
    [0xFD#8, 0xE7#8, 0xD3#8, 0xBB#8, 0x6B#8, 0xD6#8, 0xB1#8, 0x7F#8, 0xFE#8, 0xE1#8, 0xDF#8, 0xA3#8, 0x5B#8, 0xB6#8, 0x71#8, 0xE2#8],
    [0xD9#8, 0xAF#8, 0x43#8, 0x86#8, 0x11#8, 0x22#8, 0x44#8, 0x88#8, 0x0D#8, 0x1A#8, 0x34#8, 0x68#8, 0xD0#8, 0xBD#8, 0x67#8, 0xCE#8],
    [0x81#8, 0x1F#8, 0x3E#8, 0x7C#8, 0xF8#8, 0xED#8, 0xC7#8, 0x93#8, 0x3B#8, 0x76#8, 0xEC#8, 0xC5#8, 0x97#8, 0x33#8, 0x66#8, 0xCC#8] ]

/-- Rows 0x8_ to 0xF_ of the table EXP (40_finite_field.md R122 and section 6); the row is the high digit of the index, the
column the low digit. -/
def expRowsHigh : List (List Byte) :=
  [
    [0x85#8, 0x17#8, 0x2E#8, 0x5C#8, 0xB8#8, 0x6D#8, 0xDA#8, 0xA9#8, 0x4F#8, 0x9E#8, 0x21#8, 0x42#8, 0x84#8, 0x15#8, 0x2A#8, 0x54#8],
    [0xA8#8, 0x4D#8, 0x9A#8, 0x29#8, 0x52#8, 0xA4#8, 0x55#8, 0xAA#8, 0x49#8, 0x92#8, 0x39#8, 0x72#8, 0xE4#8, 0xD5#8, 0xB7#8, 0x73#8],
    [0xE6#8, 0xD1#8, 0xBF#8, 0x63#8, 0xC6#8, 0x91#8, 0x3F#8, 0x7E#8, 0xFC#8, 0xE5#8, 0xD7#8, 0xB3#8, 0x7B#8, 0xF6#8, 0xF1#8, 0xFF#8],
    [0xE3#8, 0xDB#8, 0xAB#8, 0x4B#8, 0x96#8, 0x31#8, 0x62#8, 0xC4#8, 0x95#8, 0x37#8, 0x6E#8, 0xDC#8, 0xA5#8, 0x57#8, 0xAE#8, 0x41#8],
    [0x82#8, 0x19#8, 0x32#8, 0x64#8, 0xC8#8, 0x8D#8, 0x07#8, 0x0E#8, 0x1C#8, 0x38#8, 0x70#8, 0xE0#8, 0xDD#8, 0xA7#8, 0x53#8, 0xA6#8],
    [0x51#8, 0xA2#8, 0x59#8, 0xB2#8, 0x79#8, 0xF2#8, 0xF9#8, 0xEF#8, 0xC3#8, 0x9B#8, 0x2B#8, 0x56#8, 0xAC#8, 0x45#8, 0x8A#8, 0x09#8],
    [0x12#8, 0x24#8, 0x48#8, 0x90#8, 0x3D#8, 0x7A#8, 0xF4#8, 0xF5#8, 0xF7#8, 0xF3#8, 0xFB#8, 0xEB#8, 0xCB#8, 0x8B#8, 0x0B#8, 0x16#8],
    [0x2C#8, 0x58#8, 0xB0#8, 0x7D#8, 0xFA#8, 0xE9#8, 0xCF#8, 0x83#8, 0x1B#8, 0x36#8, 0x6C#8, 0xD8#8, 0xAD#8, 0x47#8, 0x8E#8, 0x01#8] ]

/-- Rows 0x0_ to 0x7_ of the table LOG (40_finite_field.md R121 and section 6); LOG[0] is a free value (U4, log entry 7). -/
def logRowsLow : List (List Byte) :=
  [
    [Config.logZero, 0x00#8, 0x01#8, 0x19#8, 0x02#8, 0x32#8, 0x1A#8, 0xC6#8, 0x03#8, 0xDF#8, 0x33#8, 0xEE#8, 0x1B#8, 0x68#8, 0xC7#8, 0x4B#8],
    [0x04#8, 0x64#8, 0xE0#8, 0x0E#8, 0x34#8, 0x8D#8, 0xEF#8, 0x81#8, 0x1C#8, 0xC1#8, 0x69#8, 0xF8#8, 0xC8#8, 0x08#8, 0x4C#8, 0x71#8],
    [0x05#8, 0x8A#8, 0x65#8, 0x2F#8, 0xE1#8, 0x24#8, 0x0F#8, 0x21#8, 0x35#8, 0x93#8, 0x8E#8, 0xDA#8, 0xF0#8, 0x12#8, 0x82#8, 0x45#8],
    [0x1D#8, 0xB5#8, 0xC2#8, 0x7D#8, 0x6A#8, 0x27#8, 0xF9#8, 0xB9#8, 0xC9#8, 0x9A#8, 0x09#8, 0x78#8, 0x4D#8, 0xE4#8, 0x72#8, 0xA6#8],
    [0x06#8, 0xBF#8, 0x8B#8, 0x62#8, 0x66#8, 0xDD#8, 0x30#8, 0xFD#8, 0xE2#8, 0x98#8, 0x25#8, 0xB3#8, 0x10#8, 0x91#8, 0x22#8, 0x88#8],
    [0x36#8, 0xD0#8, 0x94#8, 0xCE#8, 0x8F#8, 0x96#8, 0xDB#8, 0xBD#8, 0xF1#8, 0xD2#8, 0x13#8, 0x5C#8, 0x83#8, 0x38#8, 0x46#8, 0x40#8],
    [0x1E#8, 0x42#8, 0xB6#8, 0xA3#8, 0xC3#8, 0x48#8, 0x7E#8, 0x6E#8, 0x6B#8, 0x3A#8, 0x28#8, 0x54#8, 0xFA#8, 0x85#8, 0xBA#8, 0x3D#8],
    [0xCA#8, 0x5E#8, 0x9B#8, 0x9F#8, 0x0A#8, 0x15#8, 0x79#8, 0x2B#8, 0x4E#8, 0xD4#8, 0xE5#8, 0xAC#8, 0x73#8, 0xF3#8, 0xA7#8, 0x57#8] ]

/-- Rows 0x8_ to 0xF_ of the table LOG (40_finite_field.md R121 and section 6); LOG[0] is a free value (U4, log entry 7). -/
def logRowsHigh : List (List Byte) :=
  [
    [0x07#8, 0x70#8, 0xC0#8, 0xF7#8, 0x8C#8, 0x80#8, 0x63#8, 0x0D#8, 0x67#8, 0x4A#8, 0xDE#8, 0xED#8, 0x31#8, 0xC5#8, 0xFE#8, 0x18#8],
    [0xE3#8, 0xA5#8, 0x99#8, 0x77#8, 0x26#8, 0xB8#8, 0xB4#8, 0x7C#8, 0x11#8, 0x44#8, 0x92#8, 0xD9#8, 0x23#8, 0x20#8, 0x89#8, 0x2E#8],
    [0x37#8, 0x3F#8, 0xD1#8, 0x5B#8, 0x95#8, 0xBC#8, 0xCF#8, 0xCD#8, 0x90#8, 0x87#8, 0x97#8, 0xB2#8, 0xDC#8, 0xFC#8, 0xBE#8, 0x61#8],
    [0xF2#8, 0x56#8, 0xD3#8, 0xAB#8, 0x14#8, 0x2A#8, 0x5D#8, 0x9E#8, 0x84#8, 0x3C#8, 0x39#8, 0x53#8, 0x47#8, 0x6D#8, 0x41#8, 0xA2#8],
    [0x1F#8, 0x2D#8, 0x43#8, 0xD8#8, 0xB7#8, 0x7B#8, 0xA4#8, 0x76#8, 0xC4#8, 0x17#8, 0x49#8, 0xEC#8, 0x7F#8, 0x0C#8, 0x6F#8, 0xF6#8],
    [0x6C#8, 0xA1#8, 0x3B#8, 0x52#8, 0x29#8, 0x9D#8, 0x55#8, 0xAA#8, 0xFB#8, 0x60#8, 0x86#8, 0xB1#8, 0xBB#8, 0xCC#8, 0x3E#8, 0x5A#8],
    [0xCB#8, 0x59#8, 0x5F#8, 0xB0#8, 0x9C#8, 0xA9#8, 0xA0#8, 0x51#8, 0x0B#8, 0xF5#8, 0x16#8, 0xEB#8, 0x7A#8, 0x75#8, 0x2C#8, 0xD7#8],
    [0x4F#8, 0xAE#8, 0xD5#8, 0xE9#8, 0xE6#8, 0xE7#8, 0xAD#8, 0xE8#8, 0x74#8, 0xD6#8, 0xF4#8, 0xEA#8, 0xA8#8, 0x50#8, 0x58#8, 0xAF#8] ]

/-- The entry at an index of a table printed in rows of 16. -/
def tableAt (low high : List (List Byte)) (i : Nat) : Byte :=
  if i < 128 then (low.getD (i / 16) []).getD (i % 16) 0#8
  else (high.getD (i / 16 - 8) []).getD (i % 16) 0#8

/-- EXP[i], i in 0..255 (40_finite_field.md R122). -/
def expAt (i : Nat) : Byte := tableAt expRowsLow expRowsHigh i

/-- LOG[a] as an integer (40_finite_field.md R121). -/
def logAt (a : Byte) : Nat := (tableAt logRowsLow logRowsHigh a.toNat).toNat

/-- add(a, b): bitwise exclusive or (40_finite_field.md R124). -/
def gfAdd (a b : Byte) : Byte := a ^^^ b

/-- sub(a, b): the same function as add (40_finite_field.md R125). -/
def gfSub (a b : Byte) : Byte := a ^^^ b

/-- mul(a, b) (40_finite_field.md R126): 0 if either operand is 0, else EXP[(LOG[a] + LOG[b]) mod 255]. -/
def gfMul (a b : Byte) : Byte :=
  if a = 0#8 ∨ b = 0#8 then 0#8 else expAt ((logAt a + logAt b) % 255)

/-- div(a, b), for b != 0 (40_finite_field.md R127): 0 if a = 0, else EXP[(LOG[a] - LOG[b] + 255) mod 255], the
difference taken over the integers. No rule calls it with b = 0. -/
def gfDiv (a b : Byte) : Byte :=
  if a = 0#8 then 0#8 else expAt ((logAt a + 255 - logAt b) % 255)

/-- inv(a), for a != 0 (40_finite_field.md R128): EXP[255 - LOG[a]]. No rule calls it with a = 0. -/
def gfInv (a : Byte) : Byte := expAt (255 - logAt a)

/-- A field element as a result, zero-extended (10_state.md R28). -/
def byteWord (b : Byte) : Word := b.zeroExtend 32

/-- The failure of a zero divisor (40_finite_field.md R133, R134; 60_exceptions.md R225): ERR[0] <- 1, then
fail(FF_ZERO). -/
def failZeroDivisor (s : State) : State := fail .ffZero (setFfz s)

/-- FF_ADD a, b (40_finite_field.md R130). -/
def execFfAdd (a b : Byte) (s : State) : Host.Outcome State Fault Refusal :=
  .next (ok (byteWord (gfAdd a b)) s)

/-- FF_SUB a, b (40_finite_field.md R131). -/
def execFfSub (a b : Byte) (s : State) : Host.Outcome State Fault Refusal :=
  .next (ok (byteWord (gfSub a b)) s)

/-- FF_MUL a, b (40_finite_field.md R132). -/
def execFfMul (a b : Byte) (s : State) : Host.Outcome State Fault Refusal :=
  .next (ok (byteWord (gfMul a b)) s)

/-- FF_DIV a, b (40_finite_field.md R133): the test of b comes before the test of a. -/
def execFfDiv (a b : Byte) (s : State) : Host.Outcome State Fault Refusal :=
  .next (if b = 0#8 then failZeroDivisor s else ok (byteWord (gfDiv a b)) s)

/-- FF_INV a (40_finite_field.md R134). -/
def execFfInv (a : Byte) (s : State) : Host.Outcome State Fault Refusal :=
  .next (if a = 0#8 then failZeroDivisor s else ok (byteWord (gfInv a)) s)

end Sys2Proof.Machine
end

