-- ==== Sys2Proof/Machine/Matrix.lean ====
section
/-! DEFINITION. The row operations of the decoder over matrices of bytes given row by row: the rank pass
(42_decoder.md R183) and Gauss-Jordan elimination (R192), step by step as the spec's pseudocode has them. -/

namespace Sys2Proof.Machine

/-- Row r of a matrix. -/
def matRow (m : List (List Byte)) (r : Nat) : List Byte := m.getD r []

/-- Entry [r][c] of a matrix. -/
def matEntry (m : List (List Byte)) (r c : Nat) : Byte := (matRow m r).getD c 0#8

/-- The smallest row index in start..n-1 whose entry in column col is not 0 (42_decoder.md R183, R192). -/
def pivotRow (m : List (List Byte)) (n col start : Nat) : Option Nat :=
  (List.range' start (n - start)).find? fun p => matEntry m p col != 0#8

/-- The matrix with rows i and p swapped. -/
def swapRows (m : List (List Byte)) (i p : Nat) : List (List Byte) :=
  (m.set i (matRow m p)).set p (matRow m i)

/-- A row with every byte multiplied by a field element (42_decoder.md R201). -/
def scaleRow (v : Byte) (row : List Byte) : List Byte := row.map fun x => gfMul v x

/-- A row with f times another row added, byte by byte (42_decoder.md R201). -/
def addMultiple (f : Byte) (src dst : List Byte) : List Byte :=
  List.zipWith (fun d x => gfAdd d (gfMul f x)) dst src

/-- `addMultiple` on the columns from col on (42_decoder.md R183: "for k in col..N-1"). -/
def addMultipleFrom (col : Nat) (f : Byte) (src dst : List Byte) : List Byte :=
  dst.take col ++ addMultiple f (src.drop col) (dst.drop col)

/-- The elimination below pivot row r in column col (42_decoder.md R183). -/
def eliminateBelow (m : List (List Byte)) (r col : Nat) : List (List Byte) :=
  m.mapIdx fun i row =>
    if r < i ∧ row.getD col 0#8 ≠ 0#8 then
      addMultipleFrom col (gfDiv (row.getD col 0#8) (matEntry m r col)) (matRow m r) row
    else row

/-- One column of the rank pass (42_decoder.md R183): the scratch matrix and the rank so far. -/
def rankColumn (n : Nat) (w : List (List Byte) × Nat) (col : Nat) : List (List Byte) × Nat :=
  if w.2 = n then w
  else
    match pivotRow w.1 n col w.2 with
    | none => w
    | some p => (eliminateBelow (swapRows w.1 w.2 p) w.2 col, w.2 + 1)

/-- rank_of(C, N) on a scratch copy (42_decoder.md R183). -/
def rankOf (n : Nat) (c : List (List Byte)) : Nat := ((List.range n).foldl (rankColumn n) (c, 0)).2

/-- The matrices C and Y while decode() runs, and whether it has aborted (42_decoder.md R192, R193). -/
structure Elimination where
  c : List (List Byte)
  y : List (List Byte)
  aborted : Bool
deriving DecidableEq, Repr

/-- A column cleared in every row but the pivot row i: to row k is added f = C[k][i] times the pivot row, for the
coefficient and the payload rows alike; `fs` lists the factors f (42_decoder.md R192). -/
def clearColumn (i : Nat) (fs : List Byte) (pivot : List Byte) (m : List (List Byte)) : List (List Byte) :=
  m.mapIdx fun k row =>
    if k ≠ i ∧ fs.getD k 0#8 ≠ 0#8 then addMultiple (fs.getD k 0#8) pivot row else row

/-- Step i of decode() (42_decoder.md R192): find the pivot row, or abort; swap it into place; normalise it by the
inverse of the pivot; eliminate column i from every other row. -/
def eliminationStep (n : Nat) (w : Elimination) (i : Nat) : Elimination :=
  if w.aborted then w
  else
    match pivotRow w.c n i i with
    | none => { w with aborted := true }
    | some p =>
      let c := swapRows w.c i p
      let y := swapRows w.y i p
      let v := gfInv (matEntry c i i)
      let pivotC := scaleRow v (matRow c i)
      let pivotY := scaleRow v (matRow y i)
      let fs := c.map fun row => row.getD i 0#8
      { c := clearColumn i fs pivotC (c.set i pivotC)
        y := clearColumn i fs pivotY (y.set i pivotY)
        aborted := false }

/-- The elimination of decode() over all N pivot positions (42_decoder.md R192). -/
def gaussJordan (n : Nat) (c y : List (List Byte)) : Elimination :=
  (List.range n).foldl (eliminationStep n) { c := c, y := y, aborted := false }

end Sys2Proof.Machine
end

