-- ==== Sys2Proof/Machine/Operands.lean ====
section
/-! DEFINITION. The operands a command takes from outside its word: the sizes in ARG, the payload and the coded packet
in IBUF, the RAND draws (30_encoding.md R92), and the bytes of the packet header. -/

namespace Sys2Proof.Machine

/-- N_new = ARG[15:0] (41_encoder.md R151, 42_decoder.md R188). -/
def State.argN (s : State) : Half := s.arg.extractLsb' 0 16

/-- P_new = ARG[31:16] (41_encoder.md R151, 42_decoder.md R188). -/
def State.argP (s : State) : Half := s.arg.extractLsb' 16 16

/-- The sizes in ARG are ones a unit accepts: 1..N_MAX and 1..P_MAX (41_encoder.md R151, D8). -/
def State.argLegal (s : State) : Bool :=
  decide (s.argN ≠ 0#16) && decide (s.argN.toNat ≤ s.nMax) &&
    (decide (s.argP ≠ 0#16) && decide (s.argP.toNat ≤ s.pMax))

/-- norm(P, len, IBUF) (41_encoder.md R152): byte j is IBUF[j] when j < len and 0 from len on, for j in 0..P-1. -/
def normPayload (p len : Nat) (ibuf : Memory) : List Byte :=
  (List.range p).map fun j => if j < len then ibuf.read j else 0#8

/-- be16(S, a) (00_scope.md R8): the most significant byte at the lower index (20_memory.md R65). -/
def be16 (m : Memory) (a : Nat) : Half := m.read a ++ m.read (a + 1)

/-- be32(S, a) (00_scope.md R8, 20_memory.md R65). -/
def be32 (m : Memory) (a : Nat) : Word := m.read a ++ m.read (a + 1) ++ m.read (a + 2) ++ m.read (a + 3)

/-- The two bytes of a u16, big-endian (20_memory.md R65). -/
def be16Bytes (v : Half) : List Byte := [v.extractLsb' 8 8, v.extractLsb' 0 8]

/-- The four bytes of a u32, big-endian (20_memory.md R65). -/
def be32Bytes (v : Word) : List Byte :=
  [v.extractLsb' 24 8, v.extractLsb' 16 8, v.extractLsb' 8 8, v.extractLsb' 0 8]

/-- The header field generationId of the packet in IBUF (20_memory.md R66, R68). -/
def packetGen (ibuf : Memory) : Word := be32 ibuf 0

/-- The header field generationSize of the packet in IBUF (20_memory.md R66, R68). -/
def packetSize (ibuf : Memory) : Half := be16 ibuf 4

/-- The header field coefficientCount K of the packet in IBUF (20_memory.md R66, R68). -/
def packetCount (ibuf : Memory) : Half := be16 ibuf 6

/-- The coding vector of the packet in IBUF (20_memory.md R68): IBUF[8+i] for i < K, 0 for K <= i < N; the padding
bytes are not looked at. -/
def packetVector (n : Nat) (ibuf : Memory) : List Byte :=
  (List.range n).map fun i => if i < (packetCount ibuf).toNat then ibuf.read (8 + i) else 0#8

/-- The payload of the packet in IBUF (20_memory.md R68): IBUF[8+N+j] for j in 0..P-1. -/
def packetPayload (n p : Nat) (ibuf : Memory) : List Byte := ibuf.readBytes (8 + n) p

/-- The k-th RAND draw, any of 1..255 (10_state.md R50). -/
def drawAt (k : Nat) : Byte := BitVec.ofNat 8 ((Config.randDraw k).val + 1)

/-- The next n draws (41_encoder.md R155). -/
def State.nextDraws (s : State) (n : Nat) : List Byte :=
  (List.range n).map fun i => drawAt (s.drawn + i)

end Sys2Proof.Machine
end

