-- ==== Sys2Proof/Machine/Decoder.lean ====
section
/-! DEFINITION. The DEC unit (42_decoder.md): the decode procedure and the seven DEC commands, their checks in the
order of 60_exceptions.md R223. -/

namespace Sys2Proof.Machine

/-- The coefficient matrix, the dec.N by dec.N corner of dec.C (10_state.md R41). -/
def State.decMatrix (s : State) : List (List Byte) :=
  s.dec.c.matrix s.nMax s.dec.n.toNat s.dec.n.toNat

/-- The payload matrix, the dec.N by dec.P corner of dec.Y (10_state.md R42). -/
def State.decPayloads (s : State) : List (List Byte) :=
  s.dec.y.matrix s.pMax s.dec.n.toNat s.dec.p.toNat

/-- Decoded packet k, dec.out[k][0..P-1] (10_state.md R46). -/
def State.decPacket (s : State) (k : Nat) : List Byte := s.dec.out.row s.pMax k s.dec.p.toNat

/-- The state with the eliminated matrices stored back in dec.C and dec.Y. -/
def storeElimination (w : Elimination) (s : State) : State :=
  { s with
    dec :=
      { s.dec with
        c := s.dec.c.writeRows s.nMax 0 w.c
        y := s.dec.y.writeRows s.pMax 0 w.y } }

/-- The end of a decode() that did not abort (42_decoder.md R192): dec.out <- the rows of Y, state DECODED. -/
def finishDecode (w : Elimination) (s : State) : State :=
  { s with
    dec :=
      { s.dec with
        out := s.dec.out.writeRows s.pMax 0 w.y
        state := .decoded } }

/-- decode() (42_decoder.md R192), with the abort of R193: ERR[1] <- 1 and the row operations already applied are
kept. -/
def decodeRun (s : State) : State :=
  let w := gaussJordan s.dec.n.toNat s.decMatrix s.decPayloads
  if w.aborted then setSing (storeElimination w s)
  else finishDecode w (storeElimination w s)

/-- A packet stored in the first empty row (42_decoder.md R184). -/
def storePacket (s : State) : State :=
  { s with
    dec :=
      { s.dec with
        c := s.dec.c.writeRow s.nMax s.dec.rows (packetVector s.dec.n.toNat s.ibuf)
        y := s.dec.y.writeRow s.pMax s.dec.rows (packetPayload s.dec.n.toNat s.dec.p.toNat s.ibuf)
        rows := s.dec.rows + 1 } }

/-- dec.rank recomputed from scratch (42_decoder.md R183, R184). -/
def updateRank (s : State) : State :=
  { s with dec := { s.dec with rank := rankOf s.dec.n.toNat s.decMatrix } }

/-- At full rank the state becomes DECODABLE and decode() runs inside the same command (42_decoder.md R181, R184). -/
def decodeAtFullRank (s : State) : State :=
  if s.dec.rank = s.dec.n.toNat then decodeRun { s with dec := { s.dec with state := .decodable } } else s

/-- RESULT of a stored packet (42_decoder.md R184): [0] stored, [1] innovative, [2] now DECODED. -/
def processResult (old : Nat) (s : State) : Word :=
  BitVec.ofNat 32
    (1 + 2 * (if old < s.dec.rank then 1 else 0) + 4 * (if s.dec.state = .decoded then 1 else 0))

/-- The packet in IBUF does not have the decoder's shape (20_memory.md R68): n != N or K > N or ILEN != 8 + N + P. -/
def packetIllShaped (s : State) : Bool :=
  decide (packetSize s.ibuf ≠ s.dec.n) || decide (s.dec.n.toNat < (packetCount s.ibuf).toNat) ||
    decide (s.ilen.toNat ≠ 8 + s.dec.n.toNat + s.dec.p.toNat)

/-- DEC_INIT's effect (42_decoder.md R188). -/
def decInit (s : State) : State :=
  if s.argLegal then
    ok 0#32
      { s with
        dec :=
          { n := s.argN
            p := s.argP
            gen := 0#32
            c := Memory.zero
            y := Memory.zero
            rows := 0
            rank := 0
            state := .collecting
            out := Memory.zero } }
  else fail .errParam s

/-- The work of an accepted packet (42_decoder.md R184): store it, recompute the rank, decode at full rank. -/
def acceptPacket (s : State) : State := decodeAtFullRank (updateRank (storePacket s))

/-- DEC_PROCESS's effect (42_decoder.md R184). -/
def decProcess (s : State) : State :=
  if s.dec.n = 0#16 then fail .errNotInit s
  else if s.bufCap < s.ilen.toNat then fail .errParam s
  else if s.dec.state = .decoded then fail .decDone s
  else if s.ilen.toNat < 8 then fail .decMalformed s
  else if packetGen s.ibuf ≠ s.dec.gen then fail .decWrongGen s
  else if packetIllShaped s then fail .decMalformed s
  else if s.dec.rows = s.dec.n.toNat then fail .decNoRow s
  else ok (processResult s.dec.rank (acceptPacket s)) (acceptPacket s)

/-- DEC_CAN_DECODE's effect (42_decoder.md R189). -/
def decCanDecode (s : State) : State :=
  if s.dec.n = 0#16 then fail .errNotInit s
  else ok (boolWord (decide (s.dec.rank = s.dec.n.toNat))) s

/-- DEC_RANK's effect (42_decoder.md R190): the stored rank. -/
def decRank (s : State) : State :=
  if s.dec.n = 0#16 then fail .errNotInit s else ok (BitVec.ofNat 32 s.dec.rank) s

/-- DEC_STATE's effect (42_decoder.md R191). -/
def decState (s : State) : State :=
  if s.dec.n = 0#16 then fail .errNotInit s else ok s.dec.state.tag s

/-- The lazy decode of DEC_GET (42_decoder.md R196): decode() runs first in state DECODABLE. -/
def lazyDecode (s : State) : State := if s.dec.state = .decodable then decodeRun s else s

/-- DEC_GET after its lazy decode (42_decoder.md R197). -/
def decFetch (idx : Nat) (s : State) : State :=
  if s.dec.state = .decodable then failProducing .decSingular s
  else if s.dec.state = .collecting then failProducing .decNotDecoded s
  else if s.dec.n.toNat ≤ idx then failProducing .decRange s
  else
    ok (s.dec.n.zeroExtend 32)
      { s with
        obuf := s.obuf.writeBytes 0 (s.decPacket idx)
        olen := s.dec.p.zeroExtend 32 }

/-- DEC_GET's effect (42_decoder.md R197). -/
def decGet (idx : Nat) (s : State) : State :=
  if s.dec.n = 0#16 then failProducing .errNotInit s else decFetch idx (lazyDecode s)

/-- DEC_NEXT's effect (42_decoder.md R198): the generation id counts modulo 2^32. -/
def decNext (s : State) : State :=
  if s.dec.n = 0#16 then fail .errNotInit s
  else
    ok (s.dec.gen + 1#32)
      { s with
        dec :=
          { s.dec with
            gen := s.dec.gen + 1#32
            c := Memory.zero
            y := Memory.zero
            rows := 0
            rank := 0
            state := .collecting
            out := Memory.zero } }

/-- DEC_INIT (42_decoder.md R188). -/
def execDecInit (s : State) : Host.Outcome State Fault Refusal := .next (decInit s)

/-- DEC_PROCESS (42_decoder.md R184). -/
def execDecProcess (s : State) : Host.Outcome State Fault Refusal := .next (decProcess s)

/-- DEC_CAN_DECODE (42_decoder.md R189). -/
def execDecCanDecode (s : State) : Host.Outcome State Fault Refusal := .next (decCanDecode s)

/-- DEC_RANK (42_decoder.md R190). -/
def execDecRank (s : State) : Host.Outcome State Fault Refusal := .next (decRank s)

/-- DEC_GET idx (42_decoder.md R197). -/
def execDecGet (idx : Nat) (s : State) : Host.Outcome State Fault Refusal := .next (decGet idx s)

/-- DEC_NEXT (42_decoder.md R198). -/
def execDecNext (s : State) : Host.Outcome State Fault Refusal := .next (decNext s)

/-- DEC_STATE (42_decoder.md R191). -/
def execDecState (s : State) : Host.Outcome State Fault Refusal := .next (decState s)

end Sys2Proof.Machine
end

