-- ==== Sys2Proof/Machine/Encoder.lean ====
section
/-! DEFINITION. The ENC unit (41_encoder.md): the six ENC commands, their checks in the order of 60_exceptions.md
R223. -/

namespace Sys2Proof.Machine

/-- Byte j of the packet in slot i, enc.buf[i][j] (10_state.md R36). -/
def State.encByte (s : State) (i j : Nat) : Byte := s.enc.buf.read (i * s.pMax + j)

/-- The coding vector of the draws r (41_encoder.md R155): r[i] on an occupied slot, 0 on an empty one. -/
def codingVector (e : EncUnit) (r : List Byte) : List Byte :=
  (List.range e.n.toNat).map fun i => if e.slotValid i then r.getD i 0#8 else 0#8

/-- Byte j of the coded payload of the vector c (41_encoder.md R156): the sum of mul(c[i], enc.buf[i][j]) over the
occupied slots. -/
def codedByte (s : State) (c : List Byte) (j : Nat) : Byte :=
  (List.range s.enc.n.toNat).foldl
    (fun acc i => if s.enc.slotValid i then gfAdd acc (gfMul (c.getD i 0#8) (s.encByte i j)) else acc) 0#8

/-- The coded payload of the vector c (41_encoder.md R156). -/
def codedPayload (s : State) (c : List Byte) : List Byte :=
  (List.range s.enc.p.toNat).map fun j => codedByte s c j

/-- The identity coding vector of slot k (41_encoder.md R159). -/
def identityVector (n k : Nat) : List Byte :=
  (List.range n).map fun i => if i = k then 0x01#8 else 0x00#8

/-- The bytes of a coded packet on the wire (20_memory.md R66, R67): generationId, generationSize, coefficientCount =
N, the N coefficients, the payload. -/
def packetBytes (gen : Word) (n : Half) (c y : List Byte) : List Byte :=
  be32Bytes gen ++ be16Bytes n ++ be16Bytes n ++ c ++ y

/-- emit(c, y) (41_encoder.md R158): the packet to OBUF from index 0, OLEN <- 8 + N + P. -/
def emit (c y : List Byte) (s : State) : State :=
  { s with
    obuf := s.obuf.writeBytes 0 (packetBytes s.enc.gen s.enc.n c y)
    olen := BitVec.ofNat 32 (8 + s.enc.n.toNat + s.enc.p.toNat) }

/-- ENC_INIT's effect (41_encoder.md R151). -/
def encInit (s : State) : State :=
  if s.argLegal then
    ok 0#32
      { s with
        enc :=
          { n := s.argN
            p := s.argP
            gen := 0#32
            valid := List.replicate s.nMax false
            buf := Memory.zero } }
  else fail .errParam s

/-- ENC_ADD's effect (41_encoder.md R153). -/
def encAdd (idx : Nat) (s : State) : State :=
  if s.enc.n = 0#16 then fail .errNotInit s
  else if s.bufCap < s.ilen.toNat then fail .errParam s
  else if s.enc.count = s.enc.n.toNat then fail .encFull s
  else if s.enc.n.toNat ≤ idx then fail .encRange s
  else if s.enc.slotValid idx then fail .encDup s
  else
    ok 1#32
      { s with
        enc :=
          { s.enc with
            buf := s.enc.buf.writeRow s.pMax idx (normPayload s.enc.p.toNat s.ilen.toNat s.ibuf)
            valid := s.enc.valid.set idx true } }

/-- ENC_COMPLETE's effect (41_encoder.md R154). -/
def encComplete (s : State) : State :=
  if s.enc.n = 0#16 then fail .errNotInit s
  else ok (boolWord (decide (s.enc.count = s.enc.n.toNat))) s

/-- ENC_GEN_CODED's effect with the draws r (41_encoder.md R157). N draws are taken on success, none on failure. -/
def encGenCoded (r : List Byte) (s : State) : State :=
  if s.enc.n = 0#16 then failProducing .errNotInit s
  else if s.enc.count = 0 then failProducing .encEmpty s
  else
    ok 1#32
      { emit (codingVector s.enc r) (codedPayload s (codingVector s.enc r)) s with
        drawn := s.drawn + s.enc.n.toNat }

/-- ENC_GEN_UNCODED's effect (41_encoder.md R160). -/
def encGenUncoded (idx : Nat) (s : State) : State :=
  if s.enc.n = 0#16 then failProducing .errNotInit s
  else if s.enc.n.toNat ≤ idx then failProducing .encRange s
  else if s.enc.slotValid idx = false then failProducing .encAbsent s
  else
    ok 1#32
      (emit (identityVector s.enc.n.toNat idx) (s.enc.buf.row s.pMax idx s.enc.p.toNat) s)

/-- ENC_NEXT's effect (41_encoder.md R161): the generation id counts modulo 2^32. -/
def encNext (s : State) : State :=
  if s.enc.n = 0#16 then fail .errNotInit s
  else
    ok (s.enc.gen + 1#32)
      { s with
        enc :=
          { s.enc with
            gen := s.enc.gen + 1#32
            valid := List.replicate s.nMax false
            buf := Memory.zero } }

/-- ENC_INIT (41_encoder.md R151). -/
def execEncInit (s : State) : Host.Outcome State Fault Refusal := .next (encInit s)

/-- ENC_ADD idx (41_encoder.md R153). -/
def execEncAdd (idx : Nat) (s : State) : Host.Outcome State Fault Refusal := .next (encAdd idx s)

/-- ENC_COMPLETE (41_encoder.md R154). -/
def execEncComplete (s : State) : Host.Outcome State Fault Refusal := .next (encComplete s)

/-- ENC_GEN_CODED (41_encoder.md R157): the draws are the RAND oracle's next N. -/
def execEncGenCoded (s : State) : Host.Outcome State Fault Refusal :=
  .next (encGenCoded (s.nextDraws s.enc.n.toNat) s)

/-- ENC_GEN_UNCODED idx (41_encoder.md R160). -/
def execEncGenUncoded (idx : Nat) (s : State) : Host.Outcome State Fault Refusal :=
  .next (encGenUncoded idx s)

/-- ENC_NEXT (41_encoder.md R161). -/
def execEncNext (s : State) : Host.Outcome State Fault Refusal := .next (encNext s)

end Sys2Proof.Machine
end

