-- ==== Sys2Proof/Machine/Dispatch.lean ====
section
/-! DEFINITION. The dispatch of a decoded command to its meaning (30_encoding.md R93, R95). -/

namespace Sys2Proof.Machine

def exec (i : Instr) (s : State) : Host.Outcome State Fault Refusal :=
  match i with
  | .ffAdd a b => Sys2Proof.Machine.execFfAdd a b s
  | .ffSub a b => Sys2Proof.Machine.execFfSub a b s
  | .ffMul a b => Sys2Proof.Machine.execFfMul a b s
  | .ffDiv a b => Sys2Proof.Machine.execFfDiv a b s
  | .ffInv a => Sys2Proof.Machine.execFfInv a s
  | .encInit => Sys2Proof.Machine.execEncInit s
  | .encAdd idx => Sys2Proof.Machine.execEncAdd idx s
  | .encComplete => Sys2Proof.Machine.execEncComplete s
  | .encGenCoded => Sys2Proof.Machine.execEncGenCoded s
  | .encGenUncoded idx => Sys2Proof.Machine.execEncGenUncoded idx s
  | .encNext => Sys2Proof.Machine.execEncNext s
  | .decInit => Sys2Proof.Machine.execDecInit s
  | .decProcess => Sys2Proof.Machine.execDecProcess s
  | .decCanDecode => Sys2Proof.Machine.execDecCanDecode s
  | .decRank => Sys2Proof.Machine.execDecRank s
  | .decGet idx => Sys2Proof.Machine.execDecGet idx s
  | .decNext => Sys2Proof.Machine.execDecNext s
  | .decState => Sys2Proof.Machine.execDecState s

end Sys2Proof.Machine
end

