-- ==== Sys2Proof/Machine/HostPort.lean ====
section
/-! DEFINITION. The host port: a command word, the five host accesses (10_state.md R23, R24) and the reset input
(70_reset_and_hazards.md R250). -/

namespace Sys2Proof.Machine

/-- An illegal word's effect (30_encoding.md R96): STATUS <- ERR_ILLEGAL, RESULT <- 0, nothing else. -/
def illegalWord (s : State) : State := fail .errIllegal s

/-- The command word v written to CMD (10_state.md R24, 30_encoding.md R95). -/
def runCommand (v : Word) (s : State) : Host.Outcome State Fault Refusal :=
  match decode v with
  | .ok i => exec i s
  | .error _ => .next (illegalWord s)

/-- WriteReg(n, v) (10_state.md R23). -/
def writeReg (n : Nat) (v : Word) (s : State) : Host.Outcome State Fault Refusal :=
  match n with
  | 0 => runCommand v s
  | k => .next (s.storeReg k v)

/-- WriteIBuf(i, b) (10_state.md R23): no effect at or above BUF_CAP. -/
def State.storeIBuf (s : State) (i : Nat) (b : Byte) : State :=
  if i < s.bufCap then { s with ibuf := s.ibuf.write i b } else s

/-- ReadIBuf(i) (10_state.md R23): 0 at or above BUF_CAP. -/
def State.readIBuf (s : State) (i : Nat) : Byte := if i < s.bufCap then s.ibuf.read i else 0#8

/-- ReadOBuf(i) (10_state.md R23): 0 at or above BUF_CAP. -/
def State.readOBuf (s : State) (i : Nat) : Byte := if i < s.bufCap then s.obuf.read i else 0#8

/-- One host access, complete before the next begins (10_state.md R23). A write returns nothing; a read changes
nothing but what it returns. -/
def performAccess (a : HostAccess) (s : State) : Host.Outcome State Fault Refusal :=
  match a with
  | .writeReg n v => writeReg n v { s with reply := .nothing }
  | .readReg n => .next { s with reply := .word (s.readReg n) }
  | .writeIBuf i b => .next ({ s with reply := .nothing }.storeIBuf i b)
  | .readIBuf i => .next { s with reply := .byte (s.readIBuf i) }
  | .readOBuf i => .next { s with reply := .byte (s.readOBuf i) }

/-- The reset input (70_reset_and_hazards.md R250): every piece of state takes its reset value; CAP is a constant. The
host's events still to come and the two counters of free values are the model's own and go on (log entry 8). -/
def resetCore (s : State) : State :=
  { State.afterReset s.cap (s.resets + 1) with pending := s.pending, drawn := s.drawn }

/-- One host event, taken from the head of the pending list. -/
def takeEvent (e : HostEvent) (s : State) : Host.Outcome State Fault Refusal :=
  match e with
  | .access a => performAccess a s
  | .reset => .next (resetCore s)

/-- The next event is a write of the word v to CMD; the rest of the pending list stays. -/
def State.withCommand (s : State) (v : Word) : State :=
  { s with pending := .access (.writeReg 0 v) :: s.pending }

end Sys2Proof.Machine
end

