-- ==== Sys2Proof/Machine/Step.lean ====
section
/-! DEFINITION. One step: one host event (00_scope.md R11, 10_state.md R23), and how the host of this row places a
command. -/

namespace Sys2Proof.Machine

/-- One step of the machine: the oldest pending host event happens; with none pending the core is idle and holds all
its state (60_exceptions.md R236). -/
def step (s : State) : Host.Outcome State Fault Refusal :=
  match s.pending with
  | [] => .next s
  | e :: rest => takeEvent e { s with pending := rest }

/-- The state whose very next step runs the command word of an opcode-table row's bits: the core fetches nothing
(10_state.md R21), so the word stands in a write of CMD at the head of the pending events (log entry 3). -/
def State.withFetchWord (s : State) (nbits w : Nat) : State := s.withCommand (tableWord nbits w)

end Sys2Proof.Machine
end

