-- ==== Sys2Proof/Machine/Script.lean ====
section
/-! DEFINITION. The host-script lines of 30_encoding.md R99 and R100 and the host accesses each stands for. They are
the host's, not the core's: a line becomes entries of the pending list. -/

namespace Sys2Proof.Machine

/-- A host-script line (30_encoding.md R99, R100). `command` is a line of R99, `rawWord` a command word written as a
number, the rest are the pseudo-instructions of R100. -/
inductive HostLine where
  | command (i : Instr)
  | rawWord (w : Word)
  | arg (n p : Half)
  | ilen (v : Word)
  | ibuf (bytes : List Byte)
  | status
  | result
  | olen
  | err
  | cap
  | obuf (k : Nat)
  | o2i
deriving DecidableEq, Repr

/-- The writes of consecutive IBUF bytes from index i on (30_encoding.md R100). -/
def ibufWrites (i : Nat) : List Byte → List HostAccess
  | [] => []
  | b :: bs => .writeIBuf i b :: ibufWrites (i + 1) bs

/-- WriteIBuf(i, ReadOBuf(i)) for each i of a list: the read and the write of the byte it returns (30_encoding.md R100,
o2i). -/
def carryBytes (s : State) : List Nat → List HostAccess
  | [] => []
  | i :: rest => .readOBuf i :: .writeIBuf i (s.readOBuf i) :: carryBytes s rest

/-- The accesses a line stands for when the host issues it in state s (30_encoding.md R100); only o2i looks at the
state, through the reads it makes. -/
def HostLine.expand (s : State) : HostLine → List HostAccess
  | .command i => [.writeReg 0 (encode i)]
  | .rawWord w => [.writeReg 0 w]
  | .arg n p => [.writeReg 1 (BitVec.ofNat 32 (p.toNat * 65536 + n.toNat))]
  | .ilen v => [.writeReg 2 v]
  | .ibuf bytes => ibufWrites 0 bytes ++ [.writeReg 2 (BitVec.ofNat 32 bytes.length)]
  | .status => [.readReg 3]
  | .result => [.readReg 4]
  | .olen => [.readReg 5]
  | .err => [.readReg 6]
  | .cap => [.readReg 7]
  | .obuf k => (List.range k).map fun i => .readOBuf i
  | .o2i => carryBytes s (List.range s.olen.toNat) ++ [.writeReg 2 s.olen]

/-- The state with a script line's accesses placed before the pending events. -/
def State.issue (s : State) (line : HostLine) : State :=
  { s with pending := (line.expand s).map HostEvent.access ++ s.pending }

end Sys2Proof.Machine
end

