-- ==== Sys2Proof/Safety.lean ====
section
/-! DEFINITION. The terms the claims use: the field and the linear algebra of the spec said without tables and without
elimination (40_finite_field.md R120, 42_decoder.md R182, R194), and the invariants of the machine (10_state.md R38,
R47; 60_exceptions.md R222; 20_memory.md R60, R64). A safe run is one whose every state meets `Safe`. -/

namespace Sys2Proof.Machine

/-! The field by polynomials (40_finite_field.md R120), independent of the LOG and EXP tables. -/

/-- The sum in the field of f 0, ..., f (k-1). -/
def xorSum : Nat → (Nat → Byte) → Byte
  | 0, _ => 0#8
  | k + 1, f => xorSum k f ^^^ f k

/-- The product of two polynomials over GF(2), of degree at most 14: the sum of a * x^i over the bits i of b. -/
def polyProduct (a b : Byte) : Nat → BitVec 16
  | 0 => 0#16
  | k + 1 => polyProduct a b k ^^^ (if b.getLsbD k then a.zeroExtend 16 <<< k else 0#16)

/-- The remainder modulo POLY = 0x11D: for each k downwards, POLY * x^k is added where the bit of x^(k+8) is set. -/
def polyReduce (v : BitVec 16) : Nat → BitVec 16
  | 0 => v
  | k + 1 => polyReduce (if v.getLsbD (k + 8) then v ^^^ (0x11D#16 <<< k) else v) k

/-- The product of two field elements: "the product of their polynomials reduced modulo POLY" (40_finite_field.md
R120). -/
def fieldProduct (a b : Byte) : Byte := (polyReduce (polyProduct a b 8) 7).extractLsb' 0 8

/-- xtime (40_finite_field.md R122). -/
def xtime (v : Byte) : Byte := if v.getLsbD 7 then (v <<< 1) ^^^ 0x1D#8 else v <<< 1

/-! Linear algebra over the field, by its own definitions. -/

/-- A matrix of `rows` rows of `cols` bytes. -/
def MatShape (rows cols : Nat) (m : List (List Byte)) : Prop :=
  m.length = rows ∧ ∀ row ∈ m, row.length = cols

/-- Byte j of the combination of rows with the factors fs. -/
def rowSum (fs : List Byte) (rows : List (List Byte)) (j : Nat) : Byte :=
  xorSum rows.length fun k => fieldProduct (fs.getD k 0#8) (matEntry rows k j)

/-- The vector v is a field-linear combination of the rows (42_decoder.md R182, R187). -/
def IsCombination (width : Nat) (v : List Byte) (rows : List (List Byte)) : Prop :=
  ∃ fs : List Byte, fs.length = rows.length ∧ ∀ j < width, v.getD j 0#8 = rowSum fs rows j

/-- No row is a field-linear combination of the others (42_decoder.md R182). -/
def NoRowIsCombination (width : Nat) (rows : List (List Byte)) : Prop :=
  ∀ k < rows.length, ¬ IsCombination width (matRow rows k) (rows.eraseIdx k)

/-- k is "the largest number of rows no one of which is a field-linear combination of the others" (42_decoder.md
R182). -/
def IsRowRank (width : Nat) (c : List (List Byte)) (k : Nat) : Prop :=
  (∃ sub : List (List Byte), sub.Sublist c ∧ sub.length = k ∧ NoRowIsCombination width sub) ∧
    ∀ sub : List (List Byte), sub.Sublist c → NoRowIsCombination width sub → sub.length ≤ k

/-- C * X = Y for n by n, n by p and n by p matrices (42_decoder.md R194). -/
def Solves (n p : Nat) (c x y : List (List Byte)) : Prop :=
  ∀ r < n, ∀ j < p, xorSum n (fun k => fieldProduct (matEntry c r k) (matEntry x k j)) = matEntry y r j

/-- The n by n identity (42_decoder.md R194). -/
def identityMatrix (n : Nat) : List (List Byte) := (List.range n).map fun k => identityVector n k

/-! The invariants. -/

/-- The encoder invariant (10_state.md R33, R35, R38). -/
structure EncInv (s : State) : Prop where
  /-- N and P are 0 together: the unit is unconfigured (R33) -/
  unconfigured : s.enc.n = 0#16 ↔ s.enc.p = 0#16
  /-- an unconfigured unit has generation id 0 (R38); it holds no packet by `noSlotAbove` -/
  genZero : s.enc.n = 0#16 → s.enc.gen = 0#32
  /-- enc.N <= N_MAX (R33) -/
  nBound : s.enc.n.toNat ≤ s.nMax
  /-- enc.P <= P_MAX (R33) -/
  pBound : s.enc.p.toNat ≤ s.pMax
  /-- one bit a slot, N_MAX slots (R35) -/
  slots : s.enc.valid.length = s.nMax
  /-- enc.valid[i] = 0 for every i >= enc.N (R35, R38) -/
  noSlotAbove : ∀ i < s.nMax, s.enc.n.toNat ≤ i → s.enc.slotValid i = false

/-- The decoder invariant (10_state.md R39, R47), with what makes it inductive: the stored rank is the rank of the
stored matrix and the rows not yet populated are zero (42_decoder.md R182), no state rests in DECODABLE and ERR.SING
is never set (42_decoder.md R181, R194). -/
structure DecInv (s : State) : Prop where
  /-- N and P are 0 together: the unit is unconfigured (R33, R39) -/
  unconfigured : s.dec.n = 0#16 ↔ s.dec.p = 0#16
  /-- dec.N <= N_MAX (R39) -/
  nBound : s.dec.n.toNat ≤ s.nMax
  /-- dec.P <= P_MAX (R39) -/
  pBound : s.dec.p.toNat ≤ s.pMax
  /-- dec.rank <= dec.rows (R47) -/
  rankRows : s.dec.rank ≤ s.dec.rows
  /-- dec.rows <= dec.N (R47) -/
  rowsBound : s.dec.rows ≤ s.dec.n.toNat
  /-- COLLECTING exactly when dec.rank < dec.N or the unit is unconfigured (R47) -/
  collecting : s.dec.state = .collecting ↔ s.dec.rank < s.dec.n.toNat ∨ s.dec.n = 0#16
  /-- DECODABLE is not held between commands (42_decoder.md R194) -/
  notDecodable : s.dec.state ≠ .decodable
  /-- while COLLECTING, dec.rank is the rank of the coefficient matrix (R44) -/
  rankStored : s.dec.state = .collecting → s.dec.rank = rankOf s.dec.n.toNat s.decMatrix
  /-- while COLLECTING, the rows not yet populated are zero (42_decoder.md R182) -/
  emptyRows : s.dec.state = .collecting →
    ∀ r < s.dec.n.toNat, s.dec.rows ≤ r → ∀ j < s.dec.n.toNat, matEntry s.decMatrix r j = 0#8
  /-- DECODED implies dec.rank = dec.rows = dec.N (R47) -/
  decodedFull : s.dec.state = .decoded → s.dec.rank = s.dec.n.toNat ∧ s.dec.rows = s.dec.n.toNat
  /-- DECODED implies dec.C is the identity (R47) -/
  decodedIdentity : s.dec.state = .decoded → s.decMatrix = identityMatrix s.dec.n.toNat
  /-- DECODED implies dec.out[k] = dec.Y[k] for every k < dec.N (R47) -/
  decodedPackets : s.dec.state = .decoded → ∀ k < s.dec.n.toNat, s.decPacket k = matRow s.decPayloads k
  /-- ERR[1] is never set (42_decoder.md R194) -/
  noSing : s.errSing = false

/-- The values STATUS[7:0] can hold (60_exceptions.md R222). -/
def statusCodes : List Byte :=
  [0x00#8, 0x01#8, 0x02#8, 0x03#8, 0x10#8, 0x20#8, 0x21#8, 0x22#8, 0x23#8, 0x24#8, 0x30#8, 0x31#8, 0x32#8, 0x33#8,
    0x34#8, 0x35#8, 0x36#8]

/-- The status invariant (60_exceptions.md R220, R222): a code of the table, and a failure's RESULT is 0. -/
structure StatusInv (s : State) : Prop where
  code : s.status ∈ statusCodes
  result : s.status ≠ 0x00#8 → s.result = 0#32

/-- A space in canonical form whose listed indices lie inside its size (20_memory.md R60). -/
def InSpace (m : Memory) (size : Nat) : Prop := m.wf = true ∧ ∀ cell ∈ m.cells, cell.1 < size

/-- The spaces invariant (20_memory.md R60, R64): every space is canonical and within its size, and the units' sizes
are ones the spaces hold. -/
structure SpacesInv (s : State) : Prop where
  encN : s.enc.n.toNat ≤ s.nMax
  encP : s.enc.p.toNat ≤ s.pMax
  decN : s.dec.n.toNat ≤ s.nMax
  decP : s.dec.p.toNat ≤ s.pMax
  decRows : s.dec.rows ≤ s.dec.n.toNat
  ibuf : InSpace s.ibuf s.bufCap
  obuf : InSpace s.obuf s.bufCap
  encBuf : InSpace s.enc.buf (s.nMax * s.pMax)
  decC : InSpace s.dec.c (s.nMax * s.nMax)
  decY : InSpace s.dec.y (s.nMax * s.pMax)
  decOut : InSpace s.dec.out (s.nMax * s.pMax)

/-- A safe state: every invariant of the machine holds. -/
structure Safe (s : State) : Prop where
  enc : EncInv s
  dec : DecInv s
  status : StatusInv s
  spaces : SpacesInv s

/-- Every stored row of the decoder is the combination of the source packets x that its coding vector names
(41_encoder.md R163, 42_decoder.md R194 (d)). -/
def FromSources (s : State) (x : List (List Byte)) : Prop :=
  ∀ r < s.dec.rows, ∀ j < s.dec.p.toNat,
    matEntry s.decPayloads r j =
      xorSum s.dec.n.toNat fun k => fieldProduct (matEntry s.decMatrix r k) (matEntry x k j)

/-- The packet in IBUF is the combination of the source packets x that its coding vector names (41_encoder.md R163). -/
def PacketFromSources (s : State) (x : List (List Byte)) : Prop :=
  ∀ j < s.dec.p.toNat,
    s.ibuf.read (8 + s.dec.n.toNat + j) =
      xorSum s.dec.n.toNat fun k =>
        fieldProduct ((packetVector s.dec.n.toNat s.ibuf).getD k 0#8) (matEntry x k j)

/-- The coefficient matrix with the packet in IBUF stored in the first empty row (42_decoder.md R184). -/
def State.matrixWithPacket (s : State) : List (List Byte) :=
  s.decMatrix.set s.dec.rows (packetVector s.dec.n.toNat s.ibuf)

/-- The payload matrix with the packet in IBUF stored in the first empty row (42_decoder.md R184). -/
def State.payloadsWithPacket (s : State) : List (List Byte) :=
  s.decPayloads.set s.dec.rows (packetPayload s.dec.n.toNat s.dec.p.toNat s.ibuf)

/-- A packet the decoder stores (42_decoder.md R184): the unit is configured and not DECODED, a row is free, and the
packet in IBUF is well-formed for the decoder (20_memory.md R68) and of its generation. -/
structure PacketAccepted (s : State) : Prop where
  configured : s.dec.n ≠ 0#16
  length : s.ilen.toNat = 8 + s.dec.n.toNat + s.dec.p.toNat
  fits : s.ilen.toNat ≤ s.bufCap
  notDecoded : s.dec.state ≠ .decoded
  gen : packetGen s.ibuf = s.dec.gen
  size : packetSize s.ibuf = s.dec.n
  count : (packetCount s.ibuf).toNat ≤ s.dec.n.toNat
  freeRow : s.dec.rows ≠ s.dec.n.toNat

end Sys2Proof.Machine
end

