-- ==== Sys2Proof/Certificates/Slice0/Obligations.lean ====
section
/-! DEFINITION. The statements for the provers. Each formalises rules of the spec; a docstring names them and says
where a clause is the model's own choice. An equation `t = { s with ... }` is a frame: everything it does not name is
unchanged. -/

open Sys2Proof Sys2Proof.Machine

/-! Terms of the statements. -/

/-- The match and mask of each of the 18 commands, as 30_encoding.md R93 lists them. -/
def commandPatterns : List (Word × Word) :=
  [(0x01000000#32, 0xFF0000FF#32), (0x02000000#32, 0xFF0000FF#32), (0x03000000#32, 0xFF0000FF#32),
    (0x04000000#32, 0xFF0000FF#32), (0x05000000#32, 0xFF00FFFF#32), (0x10000000#32, 0xFFFFFFFF#32),
    (0x11000000#32, 0xFFFF0000#32), (0x12000000#32, 0xFFFFFFFF#32), (0x13000000#32, 0xFFFFFFFF#32),
    (0x14000000#32, 0xFFFF0000#32), (0x15000000#32, 0xFFFFFFFF#32), (0x20000000#32, 0xFFFFFFFF#32),
    (0x21000000#32, 0xFFFFFFFF#32), (0x22000000#32, 0xFFFFFFFF#32), (0x23000000#32, 0xFFFFFFFF#32),
    (0x24000000#32, 0xFFFF0000#32), (0x25000000#32, 0xFFFFFFFF#32), (0x26000000#32, 0xFFFFFFFF#32)]

/-- The commands that may change encoder state (41_encoder.md R162). -/
def changesEncoder : Instr → Bool
  | .encInit | .encAdd _ | .encNext => true
  | _ => false

/-- The commands that may change decoder state (42_decoder.md R200). -/
def changesDecoder : Instr → Bool
  | .decInit | .decProcess | .decGet _ | .decNext => true
  | _ => false

/-- The producing commands (00_scope.md R10). -/
def isProducing : Instr → Bool
  | .encGenCoded | .encGenUncoded _ | .decGet _ => true
  | _ => false

/-- The ENC commands (30_encoding.md R93). -/
def isEncCommand : Instr → Bool
  | .encInit | .encAdd _ | .encComplete | .encGenCoded | .encGenUncoded _ | .encNext => true
  | _ => false

/-- The DEC commands (30_encoding.md R93). -/
def isDecCommand : Instr → Bool
  | .decInit | .decProcess | .decCanDecode | .decRank | .decGet _ | .decNext | .decState => true
  | _ => false

/-- FF_DIV and FF_INV with a zero divisor (40_finite_field.md R133, R134). -/
def hasZeroDivisor : Instr → Bool
  | .ffDiv _ b => b == 0#8
  | .ffInv a => a == 0#8
  | _ => false

/-- The failure codes each command can end with (60_exceptions.md R223). -/
def failureCodes : Instr → List Byte
  | .ffAdd _ _ | .ffSub _ _ | .ffMul _ _ => []
  | .ffDiv _ _ | .ffInv _ => [0x10#8]
  | .encInit | .decInit => [0x03#8]
  | .encAdd _ => [0x02#8, 0x03#8, 0x20#8, 0x22#8, 0x21#8]
  | .encComplete | .encNext => [0x02#8]
  | .encGenCoded => [0x02#8, 0x23#8]
  | .encGenUncoded _ => [0x02#8, 0x22#8, 0x24#8]
  | .decProcess => [0x02#8, 0x03#8, 0x30#8, 0x33#8, 0x31#8, 0x32#8]
  | .decCanDecode | .decRank | .decState | .decNext => [0x02#8]
  | .decGet _ => [0x02#8, 0x36#8, 0x34#8, 0x35#8]

/-- OBUF holds the header of a packet of generation `gen` and size n with coefficientCount n (20_memory.md R66, R67,
41_encoder.md R158). -/
def HeaderWritten (m : Memory) (gen : Word) (n : Half) : Prop :=
  m.read 0 = gen.extractLsb' 24 8 ∧ m.read 1 = gen.extractLsb' 16 8 ∧ m.read 2 = gen.extractLsb' 8 8 ∧
    m.read 3 = gen.extractLsb' 0 8 ∧ m.read 4 = n.extractLsb' 8 8 ∧ m.read 5 = n.extractLsb' 0 8 ∧
    m.read 6 = n.extractLsb' 8 8 ∧ m.read 7 = n.extractLsb' 0 8

/-- The reset values of 10_state.md R51 for the registers, both units and the CAP constant. -/
def HasResetValues (cap : Word) (t : State) : Prop :=
  t.arg = 0#32 ∧ t.ilen = 0#32 ∧ t.status = 0#8 ∧ t.result = 0#32 ∧ t.olen = 0#32 ∧ t.errFfz = false ∧
    t.errSing = false ∧ t.cap = cap ∧
    (t.enc.n = 0#16 ∧ t.enc.p = 0#16 ∧ t.enc.gen = 0#32 ∧ ∀ i, t.enc.slotValid i = false) ∧
    (t.dec.n = 0#16 ∧ t.dec.p = 0#16 ∧ t.dec.gen = 0#32 ∧ t.dec.rows = 0 ∧ t.dec.rank = 0 ∧
      t.dec.state = .collecting)

/-- The command ends with fail(code) (00_scope.md R8): STATUS and RESULT = 0, nothing else. -/
def FailsWith (i : Instr) (s : State) (code : Byte) : Prop :=
  exec i s = .next { s with status := code, result := 0#32 }

/-- A producing command ends with fail(code): OLEN <- 0 as well (60_exceptions.md R221). -/
def ProducerFailsWith (i : Instr) (s : State) (code : Byte) : Prop :=
  exec i s = .next { s with status := code, result := 0#32, olen := 0#32 }

/-- Every byte of a space outside the corner of its first `rows` rows and `cols` columns reads in `new` as in `old`. -/
def SameOutsideCorner (old new : Memory) (stride rows cols : Nat) : Prop :=
  ∀ a, (∀ r < rows, a < r * stride ∨ r * stride + cols ≤ a) → new.read a = old.read a

/-- The sizes in ARG are legal for an INIT command (41_encoder.md R151, 42_decoder.md R188). -/
def SizesLegal (s : State) : Prop :=
  1 ≤ (s.arg.extractLsb' 0 16).toNat ∧ (s.arg.extractLsb' 0 16).toNat ≤ (s.cap.extractLsb' 0 16).toNat ∧
    1 ≤ (s.arg.extractLsb' 16 16).toNat ∧ (s.arg.extractLsb' 16 16).toNat ≤ (s.cap.extractLsb' 16 16).toNat

/-! Encoding. -/

/-- Decoding the word of a command gives the command, with every operand value a word can spell (30_encoding.md R91,
R93, R95). -/
def Obligations.EncodeThenDecodeGivesBack : Prop :=
  ∀ i : Instr, i.wellFormed = true → decode (encode i) = .ok i

/-- A word that decodes is the word of the command it decodes to: each command has one word (30_encoding.md R91, R93,
R95, R96). -/
def Obligations.DecodeThenEncodeGivesBack : Prop :=
  ∀ (w : Word) (i : Instr), decode w = .ok i → i.wellFormed = true ∧ encode i = w

/-- R93 row by row: "a word w is that command when w & mask = match", with a = w[23:16], b = w[15:8], idx = w[15:0]
(R92). -/
def Obligations.DecodeSelectsByMatchAndMask : Prop :=
  ∀ w : Word,
    (w &&& 0xFF0000FF#32 = 0x01000000#32 →
      decode w = .ok (.ffAdd (w.extractLsb' 16 8) (w.extractLsb' 8 8))) ∧
    (w &&& 0xFF0000FF#32 = 0x02000000#32 →
      decode w = .ok (.ffSub (w.extractLsb' 16 8) (w.extractLsb' 8 8))) ∧
    (w &&& 0xFF0000FF#32 = 0x03000000#32 →
      decode w = .ok (.ffMul (w.extractLsb' 16 8) (w.extractLsb' 8 8))) ∧
    (w &&& 0xFF0000FF#32 = 0x04000000#32 →
      decode w = .ok (.ffDiv (w.extractLsb' 16 8) (w.extractLsb' 8 8))) ∧
    (w &&& 0xFF00FFFF#32 = 0x05000000#32 → decode w = .ok (.ffInv (w.extractLsb' 16 8))) ∧
    (w &&& 0xFFFFFFFF#32 = 0x10000000#32 → decode w = .ok .encInit) ∧
    (w &&& 0xFFFF0000#32 = 0x11000000#32 → decode w = .ok (.encAdd (w.toNat % 65536))) ∧
    (w &&& 0xFFFFFFFF#32 = 0x12000000#32 → decode w = .ok .encComplete) ∧
    (w &&& 0xFFFFFFFF#32 = 0x13000000#32 → decode w = .ok .encGenCoded) ∧
    (w &&& 0xFFFF0000#32 = 0x14000000#32 → decode w = .ok (.encGenUncoded (w.toNat % 65536))) ∧
    (w &&& 0xFFFFFFFF#32 = 0x15000000#32 → decode w = .ok .encNext) ∧
    (w &&& 0xFFFFFFFF#32 = 0x20000000#32 → decode w = .ok .decInit) ∧
    (w &&& 0xFFFFFFFF#32 = 0x21000000#32 → decode w = .ok .decProcess) ∧
    (w &&& 0xFFFFFFFF#32 = 0x22000000#32 → decode w = .ok .decCanDecode) ∧
    (w &&& 0xFFFFFFFF#32 = 0x23000000#32 → decode w = .ok .decRank) ∧
    (w &&& 0xFFFF0000#32 = 0x24000000#32 → decode w = .ok (.decGet (w.toNat % 65536))) ∧
    (w &&& 0xFFFFFFFF#32 = 0x25000000#32 → decode w = .ok .decNext) ∧
    (w &&& 0xFFFFFFFF#32 = 0x26000000#32 → decode w = .ok .decState)

/-- R94: the match and mask values of the decoder's table are those of R93, and they are disjoint, because each row
fixes all of bits [31:24] to a different value. -/
def Obligations.NoWordMatchesTwoRows : Prop :=
  opcodeRows.map (fun row => (row.pattern, row.mask)) = commandPatterns ∧
    (opcodeRows.Pairwise fun p q => ∀ w : Word, ¬ (w &&& p.mask = p.pattern ∧ w &&& q.mask = q.pattern)) ∧
    (∀ row ∈ opcodeRows, row.mask.extractLsb' 24 8 = 0xFF#8 ∧ row.pattern.extractLsb' 24 8 = row.op) ∧
    opcodeRows.Pairwise fun p q => p.op ≠ q.op

/-- R96: a word that matches no row does nothing except STATUS <- 0x01 and RESULT <- 0. (That the write of CMD stands
in `pending`, and `reply`, are the model's form of a host access: log entries 2 and 4.) -/
def Obligations.IllegalWordSetsStatusAndResultOnly : Prop :=
  ∀ (s : State) (w : Word) (rest : List HostEvent),
    s.pending = .access (.writeReg 0 w) :: rest → (∀ row ∈ commandPatterns, w &&& row.2 ≠ row.1) →
      step s = .next { s with pending := rest, reply := .nothing, status := 0x01#8, result := 0#32 }

/-- Words of each unit written out from 30_encoding.md R99 and 95_test_vectors.md. -/
def Obligations.SampleWordsDecode : Prop :=
  decode 0x0353CA00#32 = .ok (.ffMul 0x53#8 0xCA#8) ∧ decode 0x05530000#32 = .ok (.ffInv 0x53#8) ∧
    decode 0x11000001#32 = .ok (.encAdd 1) ∧ decode 0x13000000#32 = .ok .encGenCoded ∧
    decode 0x21000000#32 = .ok .decProcess ∧ decode 0x2400FFFF#32 = .ok (.decGet 65535)

/-! Steps. -/

/-- R24, R95: a write of CMD runs the command its word decodes to; the rest of the host's events stay (their list and
`reply` are the model's: log entries 2 and 4). -/
def Obligations.StepRunsTheDecodedCommand : Prop :=
  ∀ (s : State) (w : Word) (rest : List HostEvent) (i : Instr),
    s.pending = .access (.writeReg 0 w) :: rest → decode w = .ok i →
      step s = exec i { s with pending := rest, reply := .nothing }

/-- 60_exceptions.md R236: with no host event the core holds all its state. (A step without an event is the model's:
log entry 2.) -/
def Obligations.IdleCoreHoldsItsState : Prop :=
  ∀ s : State, s.pending = [] → step s = .next s

/-- R23, R63: what each read returns, and that it changes nothing (but `reply`, where the model puts what it returns:
log entry 4). -/
def Obligations.ReadsReturnAndChangeNothing : Prop :=
  ∀ (s : State) (rest : List HostEvent) (n : Nat),
    (s.pending = .access (.readReg n) :: rest →
      step s = .next { s with
        pending := rest
        reply := .word
          (if n = 1 then s.arg else if n = 2 then s.ilen else if n = 3 then BitVec.ofNat 32 s.status.toNat
            else if n = 4 then s.result else if n = 5 then s.olen
            else if n = 6 then (if s.errFfz then 1#32 else 0#32) + (if s.errSing then 2#32 else 0#32)
            else if n = 7 then s.cap else 0#32) }) ∧
    (s.pending = .access (.readIBuf n) :: rest →
      step s = .next { s with
        pending := rest
        reply := .byte (if n < 8 + (s.cap.extractLsb' 0 16).toNat + (s.cap.extractLsb' 16 16).toNat
          then s.ibuf.read n else 0#8) }) ∧
    (s.pending = .access (.readOBuf n) :: rest →
      step s = .next { s with
        pending := rest
        reply := .byte (if n < 8 + (s.cap.extractLsb' 0 16).toNat + (s.cap.extractLsb' 16 16).toNat
          then s.obuf.read n else 0#8) })

/-- R23: a register write reaches ARG and ILEN only (CMD aside), an IBUF write the one byte below BUF_CAP. -/
def Obligations.HostWritesReachArgIlenAndIBufOnly : Prop :=
  ∀ (s : State) (rest : List HostEvent) (n : Nat) (v : Word) (b : Byte),
    (s.pending = .access (.writeReg n v) :: rest → n ≠ 0 →
      step s = .next { s with
        pending := rest
        reply := .nothing
        arg := if n = 1 then v else s.arg
        ilen := if n = 2 then v else s.ilen }) ∧
    (s.pending = .access (.writeIBuf n b) :: rest →
      ∃ t, step s = .next t ∧ t = { s with pending := rest, reply := .nothing, ibuf := t.ibuf } ∧
        ∀ a, t.ibuf.read a =
          if a = n ∧ n < 8 + (s.cap.extractLsb' 0 16).toNat + (s.cap.extractLsb' 16 16).toNat then b
          else s.ibuf.read a)

/-- R100, the line o2i: the packet just produced is carried to the input. -/
def Obligations.PacketCarryLineMovesOBufToIBuf : Prop :=
  ∀ s : State, s.pending = [] → s.olen.toNat ≤ s.bufCap →
    ∃ t : State, Host.Core.run Sys2Proof.core (2 * s.olen.toNat + 1) (s.issue .o2i) = .next t ∧
      t = { s with reply := .nothing, ilen := s.olen, ibuf := t.ibuf } ∧
      ∀ a, t.ibuf.read a = if a < s.olen.toNat then s.obuf.read a else s.ibuf.read a

/-- R51, R250: the reset values, after the reset input from every state and in the reset state. (That CAP of the reset
state is 4 and 16, and what the model's own fields become, are the model's choice: log entries 1, 2 and 8.) -/
def Obligations.ResetGivesTheStatedValues : Prop :=
  HasResetValues 0x00100004#32 State.reset ∧
    ∀ (s : State) (rest : List HostEvent), s.pending = .reset :: rest →
      ∃ t, step s = .next t ∧ HasResetValues s.cap t

/-- R220, R262: every step of the machine, from every state, answers a next state: nothing traps, faults or is
refused, and every command ends. -/
def Obligations.EveryStepAnswersANextState : Prop :=
  (∀ s : State, ∃ t, step s = .next t) ∧ ∀ (i : Instr) (s : State), ∃ t, exec i s = .next t

/-! FF unit. -/

/-- R130, R131 (with R124, R125): the exclusive or, STATUS 0x00, nothing else; the encodings; a word of either opcode
with [7:0] not 0 is illegal (R96; the name of the rejection is the model's: log entry 18). -/
def Obligations.FfAddAndFfSubAreExclusiveOr : Prop :=
  (∀ (a b : Byte) (s : State),
    exec (.ffAdd a b) s = .next { s with status := 0x00#8, result := 0#24 ++ (a ^^^ b) } ∧
      exec (.ffSub a b) s = .next { s with status := 0x00#8, result := 0#24 ++ (a ^^^ b) }) ∧
    (∀ a b : Byte, encode (.ffAdd a b) = 0x01#8 ++ a ++ b ++ 0#8 ∧ encode (.ffSub a b) = 0x02#8 ++ a ++ b ++ 0#8) ∧
    ∀ w : Word, (w.extractLsb' 24 8 = 0x01#8 ∨ w.extractLsb' 24 8 = 0x02#8) → w.extractLsb' 0 8 ≠ 0#8 →
      decode w = .error .reservedNotZero

/-- R132, with the field product of R120 that R123 and R126 make the tables' product: RESULT is the product of the polynomials reduced modulo POLY, STATUS 0x00, nothing else changes. -/
def Obligations.FfMulIsThePolynomialProduct : Prop :=
  ∀ (a b : Byte) (s : State),
    encode (.ffMul a b) = 0x03#8 ++ a ++ b ++ 0#8 ∧
    exec (.ffMul a b) s = .next { s with status := 0x00#8, result := 0#24 ++ fieldProduct a b }

/-- R133, with the product of R120 (R123, R127, R129): for b != 0 RESULT is the q with q * b = a; for b = 0, whatever a is, FF_ZERO, RESULT 0 and ERR[0] set. -/
def Obligations.FfDivIsTheQuotient : Prop :=
  ∀ (a b : Byte) (s : State),
    encode (.ffDiv a b) = 0x04#8 ++ a ++ b ++ 0#8 ∧
    (b ≠ 0#8 → ∃ q : Byte, fieldProduct q b = a ∧
      exec (.ffDiv a b) s = .next { s with status := 0x00#8, result := 0#24 ++ q }) ∧
    (b = 0#8 → exec (.ffDiv a b) s = .next { s with status := 0x10#8, result := 0#32, errFfz := true })

/-- R134, with the product of R120 (R123, R128, R129): for a != 0 RESULT is the v with a * v = 1; for a = 0 FF_ZERO,
RESULT 0 and ERR[0] set; a word of op 0x05 with [15:0] not 0 is illegal (the name of the rejection is the model's: log
entry 18). -/
def Obligations.FfInvIsTheInverse : Prop :=
  (∀ w : Word, w.extractLsb' 24 8 = 0x05#8 → w.extractLsb' 0 16 ≠ 0#16 → decode w = .error .reservedNotZero) ∧
  ∀ (a : Byte) (s : State),
    encode (.ffInv a) = 0x05#8 ++ a ++ 0#16 ∧
    (a ≠ 0#8 → ∃ v : Byte, fieldProduct a v = 0x01#8 ∧
      exec (.ffInv a) s = .next { s with status := 0x00#8, result := 0#24 ++ v }) ∧
    (a = 0#8 → exec (.ffInv a) s = .next { s with status := 0x10#8, result := 0#32, errFfz := true })

/-- R122: EXP by its recurrence, and LOG and EXP inverse to each other. -/
def Obligations.TablesAreInverseOfEachOther : Prop :=
  expAt 0 = 0x01#8 ∧ (∀ i < 255, expAt (i + 1) = xtime (expAt i)) ∧ expAt 255 = 0x01#8 ∧
    (∀ a : Byte, a ≠ 0#8 → expAt (logAt a) = a) ∧ ∀ i < 255, logAt (expAt i) = i

/-- R129: the laws of the field, for all operands. -/
def Obligations.FieldLawsHold : Prop :=
  (∀ a b : Byte, gfAdd a b = gfAdd b a) ∧
    (∀ a b c : Byte, gfAdd a (gfAdd b c) = gfAdd (gfAdd a b) c) ∧
    (∀ a b : Byte, gfMul a b = gfMul b a) ∧
    (∀ a b c : Byte, gfMul a (gfMul b c) = gfMul (gfMul a b) c) ∧
    (∀ a b c : Byte, gfMul a (gfAdd b c) = gfAdd (gfMul a b) (gfMul a c)) ∧
    (∀ a : Byte, a ≠ 0#8 → gfMul a (gfInv a) = 0x01#8) ∧
    (∀ a b : Byte, b ≠ 0#8 → gfDiv (gfMul a b) b = a) ∧
    (∀ a : Byte, gfAdd a a = 0#8 ∧ gfAdd a 0#8 = a ∧ gfMul a 0x01#8 = a ∧ gfMul a 0#8 = 0#8 ∧
      gfDiv a 0x01#8 = a) ∧
    (∀ a : Byte, a ≠ 0#8 → gfDiv a a = 0x01#8 ∧ gfInv (gfInv a) = a) ∧
    gfInv 0x01#8 = 0x01#8 ∧
    (∀ a b : Byte, b ≠ 0#8 → gfDiv a b = gfMul a (gfInv b)) ∧
    ∀ a b : Byte, gfMul a b = 0#8 → a = 0#8 ∨ b = 0#8

/-! ENC unit. -/

/-- R151: with legal sizes in ARG the encoder is constructed, every slot empty and every byte of enc.buf 0; else
ERR_PARAM and the unit keeps its former state. -/
def Obligations.EncInitConstructsTheEncoder : Prop :=
  encode .encInit = 0x10000000#32 ∧
  ∀ s : State,
    (SizesLegal s →
      ∃ t, exec .encInit s = .next t ∧ t = { s with status := 0x00#8, result := 0#32, enc := t.enc } ∧
        t.enc.n = s.arg.extractLsb' 0 16 ∧ t.enc.p = s.arg.extractLsb' 16 16 ∧ t.enc.gen = 0#32 ∧
        (∀ i, t.enc.slotValid i = false) ∧ ∀ i < s.nMax, ∀ j < s.pMax, t.encByte i j = 0#8) ∧
    (¬ SizesLegal s → FailsWith .encInit s 0x03#8)

/-- R153, R152: ENC_ADD to an empty slot below N, with ILEN within the buffer, puts the normalised payload there and
marks the slot; all other bytes and slots stay. -/
def Obligations.EncAddBuffersTheNormalisedPayload : Prop :=
  ∀ (s : State) (idx : Nat), EncInv s → s.ilen.toNat ≤ s.bufCap → idx < s.enc.n.toNat →
    s.enc.slotValid idx = false →
      ∃ t, exec (.encAdd idx) s = .next t ∧
        t = { s with
          status := 0x00#8
          result := 1#32
          enc := { s.enc with valid := t.enc.valid, buf := t.enc.buf } } ∧
        (∀ i, t.enc.slotValid i = if i = idx then true else s.enc.slotValid i) ∧
        (∀ j < s.enc.p.toNat, t.encByte idx j = if j < s.ilen.toNat then s.ibuf.read j else 0#8) ∧
        ∀ a, a < idx * s.pMax ∨ idx * s.pMax + s.enc.p.toNat ≤ a → t.enc.buf.read a = s.enc.buf.read a

/-- R153, R223: the checks of ENC_ADD in their order. -/
def Obligations.EncAddFailsInOrder : Prop :=
  ∀ (s : State) (idx : Nat),
    (s.enc.n = 0#16 → FailsWith (.encAdd idx) s 0x02#8) ∧
    (s.enc.n ≠ 0#16 → s.bufCap < s.ilen.toNat → FailsWith (.encAdd idx) s 0x03#8) ∧
    (s.enc.n ≠ 0#16 → s.ilen.toNat ≤ s.bufCap → (∀ i < s.enc.n.toNat, s.enc.slotValid i = true) →
      FailsWith (.encAdd idx) s 0x20#8) ∧
    (s.enc.n ≠ 0#16 → s.ilen.toNat ≤ s.bufCap → (∃ i < s.enc.n.toNat, s.enc.slotValid i = false) →
      s.enc.n.toNat ≤ idx → FailsWith (.encAdd idx) s 0x22#8) ∧
    (s.enc.n ≠ 0#16 → s.ilen.toNat ≤ s.bufCap → (∃ i < s.enc.n.toNat, s.enc.slotValid i = false) →
      idx < s.enc.n.toNat → s.enc.slotValid idx = true → FailsWith (.encAdd idx) s 0x21#8)

/-- R154: RESULT is 1 when all N slots hold a packet and 0 when one is empty; nothing else changes. -/
def Obligations.EncCompleteTellsAFullGeneration : Prop :=
  encode .encComplete = 0x12000000#32 ∧
  ∀ s : State,
    (s.enc.n = 0#16 → FailsWith .encComplete s 0x02#8) ∧
    (s.enc.n ≠ 0#16 → (∀ i < s.enc.n.toNat, s.enc.slotValid i = true) →
      exec .encComplete s = .next { s with status := 0x00#8, result := 1#32 }) ∧
    (s.enc.n ≠ 0#16 → (∃ i < s.enc.n.toNat, s.enc.slotValid i = false) →
      exec .encComplete s = .next { s with status := 0x00#8, result := 0#32 })

/-- R155 to R158, R66, R67: with a packet buffered, ENC_GEN_CODED emits a packet whose vector is nonzero on the occupied
slots and 0 on the empty ones and whose payload is the sum of the vector's multiples of the buffered packets; the
encoder and OBUF above the packet are unchanged. (`drawn` is the model's: log entry 5.) -/
def Obligations.EncGenCodedEmitsALinearCombination : Prop :=
  ∀ s : State, s.enc.n ≠ 0#16 → (∃ i < s.enc.n.toNat, s.enc.slotValid i = true) →
    ∃ t, exec .encGenCoded s = .next t ∧
      t = { s with
        status := 0x00#8
        result := 1#32
        olen := BitVec.ofNat 32 (8 + s.enc.n.toNat + s.enc.p.toNat)
        obuf := t.obuf
        drawn := s.drawn + s.enc.n.toNat } ∧
      HeaderWritten t.obuf s.enc.gen s.enc.n ∧
      (∀ i < s.enc.n.toNat, (s.enc.slotValid i = true → t.obuf.read (8 + i) ≠ 0#8) ∧
        (s.enc.slotValid i = false → t.obuf.read (8 + i) = 0#8)) ∧
      (∀ j < s.enc.p.toNat, t.obuf.read (8 + s.enc.n.toNat + j) =
        xorSum s.enc.n.toNat fun i =>
          if s.enc.slotValid i then fieldProduct (t.obuf.read (8 + i)) (s.encByte i j) else 0#8) ∧
      ∀ a, 8 + s.enc.n.toNat + s.enc.p.toNat ≤ a → t.obuf.read a = s.obuf.read a

/-- R155 to R158, U5: whatever nonzero draws r the oracle gives, ENC_GEN_CODED's effect with them emits the packet whose
vector holds r[i] on every occupied slot and 0 on the others: every vector in (1..255)^count is a possible outcome.
(`encGenCoded r` is the model's name for the effect with the draws r, and `drawn` the model's counter: log entry 5.) -/
def Obligations.EveryDrawVectorGivesItsPacket : Prop :=
  (∀ s : State, exec .encGenCoded s = .next (encGenCoded (s.nextDraws s.enc.n.toNat) s) ∧
    ∀ i < s.enc.n.toNat, (s.nextDraws s.enc.n.toNat).getD i 0#8 ≠ 0#8) ∧
  ∀ (s t : State) (r : List Byte), s.enc.n ≠ 0#16 → (∃ i < s.enc.n.toNat, s.enc.slotValid i = true) →
    r.length = s.enc.n.toNat → (∀ x ∈ r, x ≠ 0#8) → t = encGenCoded r s →
      t = { s with
        status := 0x00#8
        result := 1#32
        olen := BitVec.ofNat 32 (8 + s.enc.n.toNat + s.enc.p.toNat)
        obuf := t.obuf
        drawn := s.drawn + s.enc.n.toNat } ∧
      HeaderWritten t.obuf s.enc.gen s.enc.n ∧
      (∀ i < s.enc.n.toNat, t.obuf.read (8 + i) = if s.enc.slotValid i then r.getD i 0#8 else 0#8) ∧
      (∀ j < s.enc.p.toNat, t.obuf.read (8 + s.enc.n.toNat + j) =
        xorSum s.enc.n.toNat fun i =>
          if s.enc.slotValid i then fieldProduct (r.getD i 0#8) (s.encByte i j) else 0#8) ∧
      ∀ a, 8 + s.enc.n.toNat + s.enc.p.toNat ≤ a → t.obuf.read a = s.obuf.read a

/-- R160, R158, R159, R163: ENC_GEN_UNCODED of an occupied slot emits the identity vector and the slot's own bytes, which
are the sum of R156 for that vector; the encoder and OBUF above the packet are unchanged and no draw is taken. -/
def Obligations.EncGenUncodedEmitsTheSlot : Prop :=
  ∀ (s : State) (idx : Nat), idx < s.enc.n.toNat → s.enc.slotValid idx = true →
    ∃ t, exec (.encGenUncoded idx) s = .next t ∧
      t = { s with
        status := 0x00#8
        result := 1#32
        olen := BitVec.ofNat 32 (8 + s.enc.n.toNat + s.enc.p.toNat)
        obuf := t.obuf } ∧
      HeaderWritten t.obuf s.enc.gen s.enc.n ∧
      (∀ i < s.enc.n.toNat, t.obuf.read (8 + i) = if i = idx then 0x01#8 else 0x00#8) ∧
      (∀ j < s.enc.p.toNat, t.obuf.read (8 + s.enc.n.toNat + j) = s.encByte idx j ∧
        s.encByte idx j =
          xorSum s.enc.n.toNat fun i =>
            if s.enc.slotValid i then fieldProduct (t.obuf.read (8 + i)) (s.encByte i j) else 0#8) ∧
      ∀ a, 8 + s.enc.n.toNat + s.enc.p.toNat ≤ a → t.obuf.read a = s.obuf.read a

/-- R157, R160, R221, R223: the failures of the two ENC producers, in their order, each with OLEN <- 0 and OBUF as it
was. -/
def Obligations.EncProducersFailWithOlenZero : Prop :=
  ∀ (s : State) (idx : Nat),
    (s.enc.n = 0#16 → ProducerFailsWith .encGenCoded s 0x02#8) ∧
    (s.enc.n ≠ 0#16 → (∀ i < s.enc.n.toNat, s.enc.slotValid i = false) →
      ProducerFailsWith .encGenCoded s 0x23#8) ∧
    (s.enc.n = 0#16 → ProducerFailsWith (.encGenUncoded idx) s 0x02#8) ∧
    (s.enc.n ≠ 0#16 → s.enc.n.toNat ≤ idx → ProducerFailsWith (.encGenUncoded idx) s 0x22#8) ∧
    (idx < s.enc.n.toNat → s.enc.slotValid idx = false → ProducerFailsWith (.encGenUncoded idx) s 0x24#8)

/-- R161: the generation id counts up by one modulo 2^32, every slot is empty, every byte of enc.buf is 0, N and P are
kept; RESULT is the new id. -/
def Obligations.EncNextStartsTheNextGeneration : Prop :=
  encode .encNext = 0x15000000#32 ∧
  ∀ s : State,
    (s.enc.n = 0#16 → FailsWith .encNext s 0x02#8) ∧
    (s.enc.n ≠ 0#16 →
      ∃ t, exec .encNext s = .next t ∧
        t = { s with
          status := 0x00#8
          result := t.enc.gen
          enc := { s.enc with gen := t.enc.gen, valid := t.enc.valid, buf := t.enc.buf } } ∧
        t.enc.gen.toNat = (s.enc.gen.toNat + 1) % 2 ^ 32 ∧ (∀ i, t.enc.slotValid i = false) ∧
        ∀ i < s.nMax, ∀ j < s.pMax, t.encByte i j = 0#8)

/-! What every command leaves unchanged. -/

/-- R162: only ENC_INIT, ENC_ADD and ENC_NEXT change encoder state. -/
def Obligations.OnlyThreeCommandsChangeTheEncoder : Prop :=
  ∀ (i : Instr) (s t : State), exec i s = .next t → changesEncoder i = false → t.enc = s.enc

/-- R200, first sentence: only DEC_INIT, DEC_PROCESS, DEC_GET and DEC_NEXT change decoder state, DEC_PROCESS only when
it stores, DEC_GET only when it runs the lazy decode. -/
def Obligations.OnlyFourCommandsChangeTheDecoder : Prop :=
  (∀ (i : Instr) (s t : State), exec i s = .next t → changesDecoder i = false → t.dec = s.dec) ∧
    (∀ s t : State, exec .decProcess s = .next t → t.status ≠ 0x00#8 → t.dec = s.dec) ∧
    ∀ (idx : Nat) (s t : State), exec (.decGet idx) s = .next t → s.dec.state ≠ .decodable → t.dec = s.dec

/-- R25, R26, R31, R48: no command writes ARG, ILEN, CAP or IBUF. The model's own fields stay too, but for the draws
ENC_GEN_CODED takes (log entries 2, 4, 5, 8). -/
def Obligations.CommandsKeepTheHostsInputs : Prop :=
  ∀ (i : Instr) (s t : State), exec i s = .next t →
    t.arg = s.arg ∧ t.ilen = s.ilen ∧ t.cap = s.cap ∧ t.ibuf = s.ibuf ∧ t.pending = s.pending ∧
      t.reply = s.reply ∧ t.resets = s.resets ∧ (i ≠ .encGenCoded → t.drawn = s.drawn)

/-- R30, R49: OLEN and OBUF are written by the producing commands only. -/
def Obligations.OnlyProducingCommandsWriteOutput : Prop :=
  ∀ (i : Instr) (s t : State), exec i s = .next t → isProducing i = false → t.olen = s.olen ∧ t.obuf = s.obuf

/-- R29, R225: no command and no host access clears a flag of ERR; FFZ is set by FF_DIV and FF_INV with a zero divisor
only, which end with FF_ZERO, and nothing else ends so; SING is set by DEC_PROCESS and DEC_GET only. -/
def Obligations.ErrFlagsAreSticky : Prop :=
  (∀ s t : State, step s = .next t → (∀ rest, s.pending ≠ .reset :: rest) →
    (s.errFfz = true → t.errFfz = true) ∧ (s.errSing = true → t.errSing = true)) ∧
  ∀ (i : Instr) (s t : State), exec i s = .next t →
    t.errFfz = (s.errFfz || hasZeroDivisor i) ∧ (t.status = 0x10#8 ↔ hasZeroDivisor i = true) ∧
      ((i ≠ .decProcess ∧ ∀ k, i ≠ .decGet k) → t.errSing = s.errSing)

/-- R221: a failing command has RESULT 0 and changes no unit state, not OBUF, and OLEN only to 0 in a producing
command. A DEC_GET that runs the lazy decode (from a held DECODABLE) is left out of the decoder clause: R193, and the
reading of R197 that log entry 10 names. -/
def Obligations.FailingCommandsLeaveTheUnits : Prop :=
  ∀ (i : Instr) (s t : State), exec i s = .next t → t.status ≠ 0x00#8 →
    t.result = 0#32 ∧ t.enc = s.enc ∧ t.obuf = s.obuf ∧ t.drawn = s.drawn ∧
      t.olen = (if isProducing i then 0#32 else s.olen) ∧
      (((∀ k, i ≠ .decGet k) ∨ s.dec.state ≠ .decodable) → t.dec = s.dec)

/-- R222, R223: STATUS after a command is 0x00 or one of the codes the table gives that command. -/
def Obligations.CommandsEndWithTheirCodes : Prop :=
  ∀ (i : Instr) (s t : State), exec i s = .next t → t.status = 0x00#8 ∨ t.status ∈ failureCodes i

/-- R71: swapping an adjacent ENC command and DEC command changes no unit state. -/
def Obligations.EncAndDecCommandsCommuteOnUnits : Prop :=
  ∀ (i j : Instr) (s s1 s2 s3 s4 : State), isEncCommand i = true → isDecCommand j = true →
    exec i s = .next s1 → exec j s1 = .next s2 → exec j s = .next s3 → exec i s3 = .next s4 →
      s2.enc = s4.enc ∧ s2.dec = s4.dec

/-! DEC unit. -/

/-- R188: with legal sizes in ARG the decoder is constructed, COLLECTING and empty, every byte of its memories 0; else
ERR_PARAM and the unit keeps its former state. -/
def Obligations.DecInitConstructsTheDecoder : Prop :=
  encode .decInit = 0x20000000#32 ∧
  ∀ s : State,
    (SizesLegal s →
      ∃ t, exec .decInit s = .next t ∧ t = { s with status := 0x00#8, result := 0#32, dec := t.dec } ∧
        t.dec.n = s.arg.extractLsb' 0 16 ∧ t.dec.p = s.arg.extractLsb' 16 16 ∧ t.dec.gen = 0#32 ∧
        t.dec.rows = 0 ∧ t.dec.rank = 0 ∧ t.dec.state = .collecting ∧
        ∀ a, t.dec.c.read a = 0#8 ∧ t.dec.y.read a = 0#8 ∧ t.dec.out.read a = 0#8) ∧
    (¬ SizesLegal s → FailsWith .decInit s 0x03#8)

/-- R65, R66, R68: the header fields DEC_PROCESS reads are the big-endian numbers at offsets 0, 4 and 6. -/
def Obligations.HeaderFieldsAreBigEndian : Prop :=
  ∀ m : Memory,
    (packetGen m).toNat =
      (m.read 0).toNat * 2 ^ 24 + (m.read 1).toNat * 2 ^ 16 + (m.read 2).toNat * 2 ^ 8 + (m.read 3).toNat ∧
    (packetSize m).toNat = (m.read 4).toNat * 256 + (m.read 5).toNat ∧
    (packetCount m).toNat = (m.read 6).toNat * 256 + (m.read 7).toNat

/-- R184, R223: the rejections of DEC_PROCESS in their order; each changes STATUS and RESULT only. -/
def Obligations.DecProcessRejectsInOrder : Prop :=
  ∀ s : State,
    (s.dec.n = 0#16 → FailsWith .decProcess s 0x02#8) ∧
    (s.dec.n ≠ 0#16 → s.bufCap < s.ilen.toNat → FailsWith .decProcess s 0x03#8) ∧
    (s.dec.n ≠ 0#16 → s.ilen.toNat ≤ s.bufCap → s.dec.state = .decoded → FailsWith .decProcess s 0x30#8) ∧
    (s.dec.n ≠ 0#16 → s.ilen.toNat ≤ s.bufCap → s.dec.state ≠ .decoded → s.ilen.toNat < 8 →
      FailsWith .decProcess s 0x33#8) ∧
    (s.dec.n ≠ 0#16 → s.ilen.toNat ≤ s.bufCap → s.dec.state ≠ .decoded → 8 ≤ s.ilen.toNat →
      packetGen s.ibuf ≠ s.dec.gen → FailsWith .decProcess s 0x31#8) ∧
    (s.dec.n ≠ 0#16 → s.ilen.toNat ≤ s.bufCap → s.dec.state ≠ .decoded → 8 ≤ s.ilen.toNat →
      packetGen s.ibuf = s.dec.gen →
      (packetSize s.ibuf ≠ s.dec.n ∨ s.dec.n.toNat < (packetCount s.ibuf).toNat ∨
        s.ilen.toNat ≠ 8 + s.dec.n.toNat + s.dec.p.toNat) →
      FailsWith .decProcess s 0x33#8) ∧
    (s.dec.n ≠ 0#16 → s.ilen.toNat ≤ s.bufCap → s.dec.state ≠ .decoded →
      packetGen s.ibuf = s.dec.gen → packetSize s.ibuf = s.dec.n →
      (packetCount s.ibuf).toNat ≤ s.dec.n.toNat → s.ilen.toNat = 8 + s.dec.n.toNat + s.dec.p.toNat →
      s.dec.rows = s.dec.n.toNat → FailsWith .decProcess s 0x32#8)

/-- R184, R185, R68: an accepted packet that does not complete the rank is stored in the first empty row: its vector
zero-filled from K on, its payload; dec.rank is the rank of the new matrix; RESULT says stored and innovative; every
other byte stays. -/
def Obligations.DecProcessStoresThePacket : Prop :=
  ∀ s : State, DecInv s → PacketAccepted s → rankOf s.dec.n.toNat s.matrixWithPacket < s.dec.n.toNat →
    ∃ t, exec .decProcess s = .next t ∧
      t = { s with
        status := 0x00#8
        result := if s.dec.rank < t.dec.rank then 3#32 else 1#32
        dec := { s.dec with c := t.dec.c, y := t.dec.y, rows := s.dec.rows + 1, rank := t.dec.rank } } ∧
      t.dec.rank = rankOf s.dec.n.toNat s.matrixWithPacket ∧
      (∀ i < s.dec.n.toNat, matEntry t.decMatrix s.dec.rows i =
        if i < (packetCount s.ibuf).toNat then s.ibuf.read (8 + i) else 0#8) ∧
      (∀ j < s.dec.p.toNat, matEntry t.decPayloads s.dec.rows j = s.ibuf.read (8 + s.dec.n.toNat + j)) ∧
      (∀ a, a < s.dec.rows * s.nMax ∨ s.dec.rows * s.nMax + s.dec.n.toNat ≤ a →
        t.dec.c.read a = s.dec.c.read a) ∧
      ∀ a, a < s.dec.rows * s.pMax ∨ s.dec.rows * s.pMax + s.dec.p.toNat ≤ a →
        t.dec.y.read a = s.dec.y.read a

/-- R184, R192, R194: an accepted packet that completes the rank ends in DECODED inside the same command, RESULT 7, with
dec.C the identity and dec.out the solution of the stored system; every byte of dec.C, dec.Y and dec.out outside the
corners that N and P name stays. -/
def Obligations.DecProcessDecodesAtFullRank : Prop :=
  ∀ s : State, DecInv s → PacketAccepted s → rankOf s.dec.n.toNat s.matrixWithPacket = s.dec.n.toNat →
    ∃ t, exec .decProcess s = .next t ∧
      t = { s with
        status := 0x00#8
        result := 7#32
        dec := { s.dec with
          c := t.dec.c
          y := t.dec.y
          out := t.dec.out
          rows := s.dec.rows + 1
          rank := s.dec.n.toNat
          state := .decoded } } ∧
      t.decMatrix = identityMatrix s.dec.n.toNat ∧
      (∀ k < s.dec.n.toNat, t.decPacket k = matRow t.decPayloads k) ∧
      Solves s.dec.n.toNat s.dec.p.toNat s.matrixWithPacket t.decPayloads s.payloadsWithPacket ∧
      SameOutsideCorner s.dec.c t.dec.c s.nMax s.dec.n.toNat s.dec.n.toNat ∧
      SameOutsideCorner s.dec.y t.dec.y s.pMax s.dec.n.toNat s.dec.p.toNat ∧
      SameOutsideCorner s.dec.out t.dec.out s.pMax s.dec.n.toNat s.dec.p.toNat

/-- R182, R183: what the rank pass returns is the dimension of the row space, the largest number of rows no one of which
is a field-linear combination of the others, for every square matrix. -/
def Obligations.RankIsTheRowSpaceDimension : Prop :=
  ∀ (n : Nat) (c : List (List Byte)), MatShape n n c → IsRowRank n c (rankOf n c)

/-- R187: RESULT[1] of an accepted packet is 1 exactly when its vector is not a linear combination of the vectors stored
before it, and the rank then rises by exactly one, otherwise not at all. -/
def Obligations.InnovativeMeansNotACombination : Prop :=
  ∀ s : State, DecInv s → PacketAccepted s →
    ∃ t, exec .decProcess s = .next t ∧ t.result.getLsbD 0 = true ∧
      (t.result.getLsbD 1 = true ↔
        ¬ IsCombination s.dec.n.toNat (packetVector s.dec.n.toNat s.ibuf) (s.decMatrix.take s.dec.rows)) ∧
      t.dec.rank = s.dec.rank + (if t.result.getLsbD 1 then 1 else 0)

/-- R194 (a), (b): at full rank decode() never aborts and leaves the identity in C. -/
def Obligations.DecodeNeverAbortsAtFullRank : Prop :=
  ∀ (n p : Nat) (c y : List (List Byte)), MatShape n n c → MatShape n p y → rankOf n c = n →
    (gaussJordan n c y).aborted = false ∧ (gaussJordan n c y).c = identityMatrix n

/-- R194 (c): at full rank decode() leaves in Y the unique X with C * X = Y. -/
def Obligations.DecodeComputesTheUniqueSolution : Prop :=
  ∀ (n p : Nat) (c y : List (List Byte)), MatShape n n c → MatShape n p y → rankOf n c = n →
    Solves n p c (gaussJordan n c y).y y ∧
      ∀ x : List (List Byte), MatShape n p x → Solves n p c x y → x = (gaussJordan n c y).y

/-- R194 (d), R195, T6: a decoder all of whose rows, and the packet it now accepts, are combinations of source packets x
goes on holding combinations of x while COLLECTING, and once DECODED its packet k is x k for every k. -/
def Obligations.DecoderRecoversTheSourcePackets : Prop :=
  ∀ (s : State) (x : List (List Byte)), DecInv s → PacketAccepted s →
    MatShape s.dec.n.toNat s.dec.p.toNat x → FromSources s x → PacketFromSources s x →
      ∃ t, exec .decProcess s = .next t ∧ (t.dec.state = .collecting → FromSources t x) ∧
        (t.dec.state = .decoded → ∀ k < s.dec.n.toNat, t.decPacket k = matRow x k) ∧
        t.dec.state ≠ .decodable

/-- R203: a matrix with a zero column (the vectors of an under-filled generation) has no full rank. -/
def Obligations.UnderfilledGenerationHasNoFullRank : Prop :=
  ∀ (n k : Nat) (c : List (List Byte)), MatShape n n c → k < n → (∀ r < n, matEntry c r k = 0#8) →
    rankOf n c < n

/-- R189, R190, R191: the three queries return what State holds and change nothing else; unconfigured they fail with
ERR_NOT_INIT. (A stored rank is at most N and fits RESULT: 10_state.md R44, R47.) DEC_CAN_DECODE stays 1 in DECODED, and
the rank is that of the last accepted DEC_PROCESS, 0 after DEC_INIT and DEC_NEXT: no other command changes it, and no
failing one. -/
def Obligations.DecQueriesReturnRankAndState : Prop :=
  encode .decCanDecode = 0x22000000#32 ∧ encode .decRank = 0x23000000#32 ∧ encode .decState = 0x26000000#32 ∧
  (∀ (i : Instr) (s t : State), exec i s = .next t → i ≠ .decInit → i ≠ .decProcess → i ≠ .decNext →
    t.dec.rank = s.dec.rank) ∧
  (∀ (i : Instr) (s t : State), exec i s = .next t → t.status ≠ 0x00#8 → t.dec.rank = s.dec.rank) ∧
  (∀ s t : State, (exec .decInit s = .next t ∨ exec .decNext s = .next t) → t.status = 0x00#8 → t.dec.rank = 0) ∧
  (∀ s : State, DecInv s → s.dec.state = .decoded →
    exec .decCanDecode s = .next { s with status := 0x00#8, result := 1#32 }) ∧
  ∀ s : State,
    (s.dec.n = 0#16 →
      FailsWith .decCanDecode s 0x02#8 ∧ FailsWith .decRank s 0x02#8 ∧ FailsWith .decState s 0x02#8) ∧
    (s.dec.n ≠ 0#16 →
      exec .decCanDecode s = .next { s with
        status := 0x00#8
        result := if s.dec.rank = s.dec.n.toNat then 1#32 else 0#32 } ∧
      exec .decState s = .next { s with
        status := 0x00#8
        result := match s.dec.state with
          | .collecting => 0#32
          | .decodable => 1#32
          | .decoded => 2#32 } ∧
      (s.dec.rank ≤ s.dec.n.toNat →
        ∃ t, exec .decRank s = .next t ∧ t = { s with status := 0x00#8, result := t.result } ∧
          t.result.toNat = s.dec.rank))

/-- R197: in state DECODED, DEC_GET of a packet number below N puts the packet's P bytes in OBUF; RESULT = N, OLEN = P;
the decoder and OBUF above the packet are unchanged. -/
def Obligations.DecGetReturnsADecodedPacket : Prop :=
  ∀ (s : State) (idx : Nat), s.dec.state = .decoded → idx < s.dec.n.toNat →
    ∃ t, exec (.decGet idx) s = .next t ∧
      t = { s with
        status := 0x00#8
        result := BitVec.ofNat 32 s.dec.n.toNat
        olen := BitVec.ofNat 32 s.dec.p.toNat
        obuf := t.obuf } ∧
      (∀ j < s.dec.p.toNat, t.obuf.read j = s.dec.out.read (idx * s.pMax + j)) ∧
      ∀ a, s.dec.p.toNat ≤ a → t.obuf.read a = s.obuf.read a

/-- R197, R221, R223: the failures of DEC_GET that need no lazy decode, in their order, each with OLEN <- 0. -/
def Obligations.DecGetFailsInOrder : Prop :=
  ∀ (s : State) (idx : Nat),
    (s.dec.n = 0#16 → ProducerFailsWith (.decGet idx) s 0x02#8) ∧
    (s.dec.n ≠ 0#16 → s.dec.state = .collecting → ProducerFailsWith (.decGet idx) s 0x34#8) ∧
    (s.dec.n ≠ 0#16 → s.dec.state = .decoded → s.dec.n.toNat ≤ idx → ProducerFailsWith (.decGet idx) s 0x35#8)

/-- What the lazy decode leaves in dec.C and dec.Y: the eliminated matrices in their corners, every other byte as it
was (42_decoder.md R192, R193). -/
def EliminationStored (s t : State) : Prop :=
  t.decMatrix = (gaussJordan s.dec.n.toNat s.decMatrix s.decPayloads).c ∧
    t.decPayloads = (gaussJordan s.dec.n.toNat s.decMatrix s.decPayloads).y ∧
    SameOutsideCorner s.dec.c t.dec.c s.nMax s.dec.n.toNat s.dec.n.toNat ∧
    SameOutsideCorner s.dec.y t.dec.y s.pMax s.dec.n.toNat s.dec.p.toNat

/-- What a lazy decode that does not abort leaves in dec.out: the rows of the eliminated payload matrix, every other
byte as it was (42_decoder.md R192). -/
def PacketsStored (s t : State) : Prop :=
  (∀ k < s.dec.n.toNat, t.decPacket k = matRow (gaussJordan s.dec.n.toNat s.decMatrix s.decPayloads).y k) ∧
    SameOutsideCorner s.dec.out t.dec.out s.pMax s.dec.n.toNat s.dec.p.toNat

/-- R193, R196, R197: in a held DECODABLE, DEC_GET first decodes: if the elimination aborts the command fails with
DEC_SINGULAR, sets SING and keeps rank, rows, generation id, cache and state tag; if not, the state becomes DECODED
with the eliminated payloads as packets, and the command returns packet idx, or fails with DEC_RANGE for an idx not
below N (the decode then stays done: log entry 10). -/
def Obligations.DecGetRunsTheLazyDecode : Prop :=
  ∀ (s : State) (idx : Nat), s.dec.n ≠ 0#16 → s.dec.state = .decodable →
    s.dec.n.toNat ≤ s.nMax → s.dec.p.toNat ≤ s.pMax →
    ((gaussJordan s.dec.n.toNat s.decMatrix s.decPayloads).aborted = true →
      ∃ t, exec (.decGet idx) s = .next t ∧
        t = { s with
          status := 0x36#8
          result := 0#32
          olen := 0#32
          errSing := true
          dec := { s.dec with c := t.dec.c, y := t.dec.y } } ∧
        EliminationStored s t) ∧
    ((gaussJordan s.dec.n.toNat s.decMatrix s.decPayloads).aborted = false → idx < s.dec.n.toNat →
      ∃ t, exec (.decGet idx) s = .next t ∧
        t = { s with
          status := 0x00#8
          result := BitVec.ofNat 32 s.dec.n.toNat
          olen := BitVec.ofNat 32 s.dec.p.toNat
          obuf := t.obuf
          dec := { s.dec with c := t.dec.c, y := t.dec.y, out := t.dec.out, state := .decoded } } ∧
        EliminationStored s t ∧ PacketsStored s t ∧
        (∀ j < s.dec.p.toNat, t.obuf.read j =
          matEntry (gaussJordan s.dec.n.toNat s.decMatrix s.decPayloads).y idx j) ∧
        ∀ a, s.dec.p.toNat ≤ a → t.obuf.read a = s.obuf.read a) ∧
    ((gaussJordan s.dec.n.toNat s.decMatrix s.decPayloads).aborted = false → s.dec.n.toNat ≤ idx →
      ∃ t, exec (.decGet idx) s = .next t ∧
        t = { s with
          status := 0x35#8
          result := 0#32
          olen := 0#32
          dec := { s.dec with c := t.dec.c, y := t.dec.y, out := t.dec.out, state := .decoded } } ∧
        EliminationStored s t ∧ PacketsStored s t)

/-- R198: the generation id counts up by one modulo 2^32, every byte of the decoder's memories is 0, no row is
populated, the rank is 0 and the state COLLECTING; N and P are kept; RESULT is the new id; ERR is not cleared. The
decoder never advances by itself: no command but DEC_NEXT and DEC_INIT changes its generation id. -/
def Obligations.DecNextStartsTheNextGeneration : Prop :=
  encode .decNext = 0x25000000#32 ∧
  (∀ (i : Instr) (s t : State), exec i s = .next t → i ≠ .decNext → i ≠ .decInit → t.dec.gen = s.dec.gen) ∧
  ∀ s : State,
    (s.dec.n = 0#16 → FailsWith .decNext s 0x02#8) ∧
    (s.dec.n ≠ 0#16 →
      ∃ t, exec .decNext s = .next t ∧
        t = { s with
          status := 0x00#8
          result := t.dec.gen
          dec := { s.dec with
            gen := t.dec.gen
            c := t.dec.c
            y := t.dec.y
            out := t.dec.out
            rows := 0
            rank := 0
            state := .collecting } } ∧
        t.dec.gen.toNat = (s.dec.gen.toNat + 1) % 2 ^ 32 ∧
        ∀ a, t.dec.c.read a = 0#8 ∧ t.dec.y.read a = 0#8 ∧ t.dec.out.read a = 0#8)

/-- R199: in state DECODED every DEC_PROCESS ends in fail(DEC_DONE) before IBUF is parsed (an ILEN above BUF_CAP is
tested first, R184), and nothing but STATUS and RESULT changes. -/
def Obligations.DecodedDecoderRefusesPackets : Prop :=
  ∀ s : State, s.dec.n ≠ 0#16 → s.dec.state = .decoded →
    (s.ilen.toNat ≤ s.bufCap → FailsWith .decProcess s 0x30#8) ∧
    (s.bufCap < s.ilen.toNat → FailsWith .decProcess s 0x03#8)

/-! Invariants. -/

/-- R38: every step keeps the encoder invariant. -/
def Obligations.StepKeepsTheEncoderInvariant : Prop :=
  ∀ s t : State, EncInv s → step s = .next t → EncInv t

/-- R47, R194, T5: every step keeps the decoder invariant; in particular no step ends in DECODABLE and ERR[1] is never
set. -/
def Obligations.StepKeepsTheDecoderInvariant : Prop :=
  ∀ s t : State, DecInv s → step s = .next t → DecInv t

/-- R220, R222, T2: every step keeps STATUS one of the table's codes, and RESULT 0 under a failure. -/
def Obligations.StepKeepsTheStatusInvariant : Prop :=
  ∀ s t : State, StatusInv s → step s = .next t → StatusInv t

/-- R60, R64: every step keeps every byte space in canonical form and inside its size. (The canonical form is the
model's: log entry 6.) -/
def Obligations.StepKeepsTheSpacesCanonical : Prop :=
  ∀ s t : State, SpacesInv s → step s = .next t → SpacesInv t

/-- R38, R47, R51: the reset state meets every invariant. -/
def Obligations.ResetMeetsEveryInvariant : Prop := Safe State.reset
end

