-- ==== Sys2Proof/Laws/Memory.lean ====
section
/-! SUPPORT. The laws of the byte spaces (20_memory.md R60 to R64): a read after a write, reads elsewhere, rows, and
that every operation keeps the canonical form. -/

namespace Sys2Proof.Machine

/-! Cells. -/

theorem cellsGet_put (l : List Host.Cell) (a a' : Nat) (b : Byte) :
    cellsGet (cellsPut l a b) a' = if a' = a then some b else cellsGet l a' := by
  induction l with
  | nil => simp [cellsPut, cellsGet]
  | cons head rest ih =>
    obtain ⟨k, v⟩ := head
    rw [cellsPut]
    split
    · rfl
    · split
      · next hk =>
        subst hk
        by_cases h : a' = a <;> simp [cellsGet, h]
      · next hk =>
        by_cases h : a' = a
        · subst h; simp [cellsGet, hk, ih]
        · simp [cellsGet, ih, h]

/-- Every index of a rising list after its first is above the first. -/
theorem cellsRising_lt {k : Nat} {v : Byte} {rest : List Host.Cell} (h : cellsRising ((k, v) :: rest) = true) :
    ∀ cell ∈ rest, k < cell.1 := by
  induction rest generalizing k v with
  | nil => simp
  | cons head tail ih =>
    obtain ⟨k', v'⟩ := head
    simp only [cellsRising, Bool.and_eq_true, decide_eq_true_eq] at h
    intro cell hc
    rcases List.mem_cons.1 hc with rfl | hc
    · exact h.1
    · exact Nat.lt_trans h.1 (ih h.2 cell hc)

theorem cellsRising_tail {head : Host.Cell} {rest : List Host.Cell} (h : cellsRising (head :: rest) = true) :
    cellsRising rest = true := by
  cases rest with
  | nil => rfl
  | cons => simp only [cellsRising, Bool.and_eq_true] at h; exact h.2

theorem cellsGet_drop (l : List Host.Cell) (a a' : Nat) :
    cellsGet (cellsDrop l a) a' = if a' = a then none else cellsGet l a' := by
  induction l with
  | nil => simp [cellsDrop, cellsGet]
  | cons head rest ih =>
    obtain ⟨k, v⟩ := head
    rw [cellsDrop]
    by_cases hk : a = k
    · subst hk
      by_cases h : a' = a
      · subst h; simpa [cellsGet] using ih
      · simp [cellsGet, ih, h]
    · by_cases h : a' = a
      · subst h; simp [cellsGet, ih, hk]
      · simp [cellsGet, ih, hk, h]

/-- A listed index of a changed list was listed before, or is the one written. -/
theorem cellsPut_mem {l : List Host.Cell} {a : Nat} {b : Byte} {cell : Host.Cell} (h : cell ∈ cellsPut l a b) :
    cell = (a, b) ∨ cell ∈ l := by
  induction l with
  | nil => simpa [cellsPut] using h
  | cons head rest ih =>
    obtain ⟨k, v⟩ := head
    rw [cellsPut] at h
    split at h
    · simpa using h
    · split at h
      · rcases List.mem_cons.1 h with h | h
        · exact .inl h
        · exact .inr (List.mem_cons_of_mem _ h)
      · rcases List.mem_cons.1 h with h | h
        · exact .inr (by simp [h])
        · rcases ih h with h | h
          · exact .inl h
          · exact .inr (List.mem_cons_of_mem _ h)

theorem cellsDrop_mem {l : List Host.Cell} {a : Nat} {cell : Host.Cell} (h : cell ∈ cellsDrop l a) : cell ∈ l := by
  induction l with
  | nil => simp [cellsDrop] at h
  | cons head rest ih =>
    obtain ⟨k, v⟩ := head
    rw [cellsDrop] at h
    split at h
    · exact List.mem_cons_of_mem _ (ih h)
    · rcases List.mem_cons.1 h with h | h
      · simp [h]
      · exact List.mem_cons_of_mem _ (ih h)

/-- A cell put before a rising list whose indices are all above it. -/
theorem cellsRising_cons {k : Nat} {v : Byte} {l : List Host.Cell} (hl : cellsRising l = true)
    (h : ∀ cell ∈ l, k < cell.1) : cellsRising ((k, v) :: l) = true := by
  cases l with
  | nil => rfl
  | cons head rest =>
    obtain ⟨k', v'⟩ := head
    simp only [cellsRising, Bool.and_eq_true, decide_eq_true_eq]
    exact ⟨h (k', v') (by simp), hl⟩

theorem cellsPut_rising {l : List Host.Cell} {a : Nat} {b : Byte} (h : cellsRising l = true) :
    cellsRising (cellsPut l a b) = true := by
  induction l with
  | nil => rfl
  | cons head rest ih =>
    obtain ⟨k, v⟩ := head
    rw [cellsPut]
    split
    · next hlt =>
      refine cellsRising_cons h fun cell hc => ?_
      rcases List.mem_cons.1 hc with rfl | hc
      · exact hlt
      · exact Nat.lt_trans hlt (cellsRising_lt h cell hc)
    · split
      · next hk => subst hk; exact cellsRising_cons (cellsRising_tail h) (cellsRising_lt h)
      · refine cellsRising_cons (ih (cellsRising_tail h)) fun cell hc => ?_
        rcases cellsPut_mem hc with rfl | hc
        · simp only; omega
        · exact cellsRising_lt h cell hc

theorem cellsDrop_rising {l : List Host.Cell} {a : Nat} (h : cellsRising l = true) :
    cellsRising (cellsDrop l a) = true := by
  induction l with
  | nil => rfl
  | cons head rest ih =>
    obtain ⟨k, v⟩ := head
    rw [cellsDrop]
    split
    · exact ih (cellsRising_tail h)
    · exact cellsRising_cons (ih (cellsRising_tail h)) fun cell hc => cellsRising_lt h cell (cellsDrop_mem hc)

/-! Memories. -/

theorem Memory.wf_rising {m : Memory} (h : m.wf = true) : cellsRising m.cells = true := by
  simp only [Memory.wf, Bool.and_eq_true] at h; exact h.1

theorem Memory.wf_nonzero {m : Memory} (h : m.wf = true) (ho : m.origin = .zeroed) :
    ∀ cell ∈ m.cells, cell.2 ≠ 0#8 := by
  simp only [Memory.wf, Bool.and_eq_true, Bool.or_eq_true, decide_eq_true_eq, List.all_eq_true, bne_iff_ne] at h
  rcases h.2 with h | h
  · exact absurd ho h
  · exact h

theorem Memory.wf_intro {m : Memory} (h : cellsRising m.cells = true)
    (h0 : m.origin = .zeroed → ∀ cell ∈ m.cells, cell.2 ≠ 0#8) : m.wf = true := by
  simp only [Memory.wf, Bool.and_eq_true, Bool.or_eq_true, decide_eq_true_eq, List.all_eq_true, bne_iff_ne]
  refine ⟨h, ?_⟩
  by_cases ho : m.origin = .zeroed
  · exact .inr (h0 ho)
  · exact .inl ho

@[simp] theorem Memory.write_origin (m : Memory) (a : Nat) (b : Byte) : (m.write a b).origin = m.origin := by
  unfold Memory.write; split <;> rfl

/-- A write keeps the canonical form. -/
theorem Memory.write_wf {m : Memory} (a : Nat) (b : Byte) (h : m.wf = true) : (m.write a b).wf = true := by
  have hr := Memory.wf_rising h
  unfold Memory.write
  split
  · next hz => exact Memory.wf_intro (cellsDrop_rising hr) fun ho cell hc => Memory.wf_nonzero h ho cell (cellsDrop_mem hc)
  · next hz =>
    refine Memory.wf_intro (cellsPut_rising hr) fun ho cell hc => ?_
    rcases cellsPut_mem hc with rfl | hc
    · exact fun hb => hz ⟨ho, hb⟩
    · exact Memory.wf_nonzero h ho cell hc

theorem Memory.read_eq (m : Memory) (a : Nat) : m.read a = (cellsGet m.cells a).getD (unlisted m.origin a) := by
  unfold Memory.read
  cases cellsGet m.cells a <;> rfl

/-- A read after a write: the byte written at its index, the byte as before elsewhere. -/
theorem Memory.read_write (m : Memory) (a a' : Nat) (b : Byte) :
    (m.write a b).read a' = if a' = a then b else m.read a' := by
  rw [Memory.read_eq, Memory.read_eq, Memory.write_origin]
  unfold Memory.write
  by_cases hz : m.origin = .zeroed ∧ b = 0#8
  · by_cases h : a' = a
    · simp [hz, h, cellsGet_drop, unlisted]
    · simp [hz, h, cellsGet_drop]
  · by_cases h : a' = a
    · simp only [hz, if_false, h, cellsGet_put, if_true, Option.getD_some]
    · simp only [hz, if_false, h, cellsGet_put]

@[simp] theorem Memory.writeBytes_origin (m : Memory) (a : Nat) (bs : List Byte) :
    (m.writeBytes a bs).origin = m.origin := by
  induction bs generalizing m a with
  | nil => rfl
  | cons b bs ih => simp [Memory.writeBytes, ih]

theorem Memory.writeBytes_wf {m : Memory} (a : Nat) (bs : List Byte) (h : m.wf = true) :
    (m.writeBytes a bs).wf = true := by
  induction bs generalizing m a with
  | nil => exact h
  | cons b bs ih => exact ih (a + 1) (Memory.write_wf a b h)

/-- A read after MemWrite: inside the bytes written, the byte of the list; elsewhere, the byte as before. -/
theorem Memory.read_writeBytes (m : Memory) (a a' : Nat) (bs : List Byte) :
    (m.writeBytes a bs).read a' = if a ≤ a' ∧ a' < a + bs.length then bs.getD (a' - a) 0#8 else m.read a' := by
  induction bs generalizing m a with
  | nil => simp [Memory.writeBytes]
  | cons b bs ih =>
    rw [Memory.writeBytes, ih, Memory.read_write, List.length_cons]
    by_cases ha : a' = a
    · subst ha; simp
    · by_cases hin : a + 1 ≤ a' ∧ a' < a + 1 + bs.length
      · have : a' - a = (a' - (a + 1)) + 1 := by omega
        simp only [hin, if_true, and_self, this, List.getD_cons_succ]
        rw [if_pos (by omega)]
      · rw [if_neg hin, if_neg ha, if_neg (by omega)]

@[simp] theorem Memory.readBytes_length (m : Memory) (a n : Nat) : (m.readBytes a n).length = n := by
  simp [Memory.readBytes]

theorem Memory.readBytes_getD (m : Memory) (a n j : Nat) (h : j < n) :
    (m.readBytes a n).getD j 0#8 = m.read (a + j) := by
  simp [Memory.readBytes, List.getD, h]

@[simp] theorem Memory.row_length (m : Memory) (stride r n : Nat) : (m.row stride r n).length = n :=
  Memory.readBytes_length _ _ _

@[simp] theorem Memory.matrix_length (m : Memory) (stride rows cols : Nat) :
    (m.matrix stride rows cols).length = rows := by simp [Memory.matrix]

theorem Memory.matrix_shape (m : Memory) (stride rows cols : Nat) :
    MatShape rows cols (m.matrix stride rows cols) := by
  refine ⟨Memory.matrix_length _ _ _ _, fun row h => ?_⟩
  simp only [Memory.matrix, List.mem_map] at h
  obtain ⟨r, -, rfl⟩ := h
  exact Memory.row_length _ _ _ _

/-- Entry [r][j] of a matrix read from a space. -/
theorem Memory.matrix_entry (m : Memory) (stride rows cols r j : Nat) (hr : r < rows) (hj : j < cols) :
    matEntry (m.matrix stride rows cols) r j = m.read (r * stride + j) := by
  have hrow : matRow (m.matrix stride rows cols) r = m.row stride r cols := by
    simp [matRow, Memory.matrix, List.getD, hr]
  rw [matEntry, hrow]
  exact Memory.readBytes_getD _ _ _ _ hj

/-- A read after a row is written: inside the row's bytes, the byte of the list; elsewhere, the byte as before. -/
theorem Memory.read_writeRow (m : Memory) (stride r a' : Nat) (bs : List Byte) :
    (m.writeRow stride r bs).read a' =
      if r * stride ≤ a' ∧ a' < r * stride + bs.length then bs.getD (a' - r * stride) 0#8 else m.read a' :=
  Memory.read_writeBytes m (r * stride) a' bs

theorem Memory.writeRow_wf {m : Memory} (stride r : Nat) (bs : List Byte) (h : m.wf = true) :
    (m.writeRow stride r bs).wf = true := Memory.writeBytes_wf _ _ h

theorem Memory.writeRows_wf {m : Memory} (stride r : Nat) (rows : List (List Byte)) (h : m.wf = true) :
    (m.writeRows stride r rows).wf = true := by
  induction rows generalizing m r with
  | nil => exact h
  | cons row rest ih => exact ih (r + 1) (Memory.writeRow_wf stride r row h)

@[simp] theorem Memory.zero_wf : Memory.zero.wf = true := by decide

@[simp] theorem Memory.zero_read (a : Nat) : Memory.zero.read a = 0#8 := rfl

@[simp] theorem Memory.unspecified_wf (epoch : Nat) (space : Space) : (Memory.unspecified epoch space).wf = true := by
  simp [Memory.unspecified, Memory.wf, cellsRising]

/-- The memories of the reset state are canonical. -/
theorem reset_memories_wf :
    State.reset.ibuf.wf = true ∧ State.reset.obuf.wf = true ∧ State.reset.enc.buf.wf = true ∧
      State.reset.dec.c.wf = true ∧ State.reset.dec.y.wf = true ∧ State.reset.dec.out.wf = true :=
  ⟨Memory.unspecified_wf _ _, Memory.unspecified_wf _ _, Memory.unspecified_wf _ _, Memory.unspecified_wf _ _,
    Memory.unspecified_wf _ _, Memory.unspecified_wf _ _⟩

end Sys2Proof.Machine
end

