-- ==== Sys2Proof/Laws/PerInstr.lean ====
section
/-! SUPPORT. The family `EncodedWordMatches`, one lemma per constructor of Instr: a command's word masked with its row's
mask is its row's match (30_encoding.md R93). -/

namespace Sys2Proof.Laws

/-- A word of format F2 masked to its opcode and reserved field (30_encoding.md R91). -/
theorem wordF2_masked (op a b : Byte) : wordF2 op a b &&& 0xFF0000FF#32 = wordF2 op 0#8 0#8 := by
  apply BitVec.eq_of_getLsbD_eq
  intro i hi
  simp only [wordF2, BitVec.getLsbD_and, BitVec.getLsbD_append]
  interval_cases i <;> simp

/-- A word of format F1 masked to its opcode and reserved field (30_encoding.md R91). -/
theorem wordF1_masked (op a : Byte) : wordF1 op a &&& 0xFF00FFFF#32 = wordF1 op 0#8 := by
  apply BitVec.eq_of_getLsbD_eq
  intro i hi
  simp only [wordF1, BitVec.getLsbD_and, BitVec.getLsbD_append]
  interval_cases i <;> simp

/-- A word of format S masked to its opcode and reserved field (30_encoding.md R91). -/
theorem wordS_masked (op : Byte) (idx : Nat) : wordS op idx &&& 0xFFFF0000#32 = wordS op 0 := by
  apply BitVec.eq_of_getLsbD_eq
  intro i hi
  simp only [wordS, BitVec.getLsbD_and, BitVec.getLsbD_append]
  interval_cases i <;> simp

/-- The row of the opcode map that a command's word is written from (30_encoding.md R93). -/
def encodedRow : Instr → Word × Word
  | .ffAdd _ _ => (0x01000000#32, 0xFF0000FF#32)
  | .ffSub _ _ => (0x02000000#32, 0xFF0000FF#32)
  | .ffMul _ _ => (0x03000000#32, 0xFF0000FF#32)
  | .ffDiv _ _ => (0x04000000#32, 0xFF0000FF#32)
  | .ffInv _ => (0x05000000#32, 0xFF00FFFF#32)
  | .encInit => (0x10000000#32, 0xFFFFFFFF#32)
  | .encAdd _ => (0x11000000#32, 0xFFFF0000#32)
  | .encComplete => (0x12000000#32, 0xFFFFFFFF#32)
  | .encGenCoded => (0x13000000#32, 0xFFFFFFFF#32)
  | .encGenUncoded _ => (0x14000000#32, 0xFFFF0000#32)
  | .encNext => (0x15000000#32, 0xFFFFFFFF#32)
  | .decInit => (0x20000000#32, 0xFFFFFFFF#32)
  | .decProcess => (0x21000000#32, 0xFFFFFFFF#32)
  | .decCanDecode => (0x22000000#32, 0xFFFFFFFF#32)
  | .decRank => (0x23000000#32, 0xFFFFFFFF#32)
  | .decGet _ => (0x24000000#32, 0xFFFF0000#32)
  | .decNext => (0x25000000#32, 0xFFFFFFFF#32)
  | .decState => (0x26000000#32, 0xFFFFFFFF#32)

/-- A command's word masked with its row's mask is its row's match (30_encoding.md R93). -/
def EncodedWordMatches.Statement (i : Instr) : Prop :=
  encode i &&& (encodedRow i).2 = (encodedRow i).1

theorem EncodedWordMatches.ffAdd (a b : Byte) : EncodedWordMatches.Statement (.ffAdd a b) :=
  (wordF2_masked _ a b).trans rfl

theorem EncodedWordMatches.ffSub (a b : Byte) : EncodedWordMatches.Statement (.ffSub a b) :=
  (wordF2_masked _ a b).trans rfl

theorem EncodedWordMatches.ffMul (a b : Byte) : EncodedWordMatches.Statement (.ffMul a b) :=
  (wordF2_masked _ a b).trans rfl

theorem EncodedWordMatches.ffDiv (a b : Byte) : EncodedWordMatches.Statement (.ffDiv a b) :=
  (wordF2_masked _ a b).trans rfl

theorem EncodedWordMatches.ffInv (a : Byte) : EncodedWordMatches.Statement (.ffInv a) :=
  (wordF1_masked _ a).trans rfl

theorem EncodedWordMatches.encInit : EncodedWordMatches.Statement .encInit := by
  unfold EncodedWordMatches.Statement; decide

theorem EncodedWordMatches.encAdd (idx : Nat) : EncodedWordMatches.Statement (.encAdd idx) :=
  (wordS_masked _ idx).trans rfl

theorem EncodedWordMatches.encComplete : EncodedWordMatches.Statement .encComplete := by
  unfold EncodedWordMatches.Statement; decide

theorem EncodedWordMatches.encGenCoded : EncodedWordMatches.Statement .encGenCoded := by
  unfold EncodedWordMatches.Statement; decide

theorem EncodedWordMatches.encGenUncoded (idx : Nat) : EncodedWordMatches.Statement (.encGenUncoded idx) :=
  (wordS_masked _ idx).trans rfl

theorem EncodedWordMatches.encNext : EncodedWordMatches.Statement .encNext := by
  unfold EncodedWordMatches.Statement; decide

theorem EncodedWordMatches.decInit : EncodedWordMatches.Statement .decInit := by
  unfold EncodedWordMatches.Statement; decide

theorem EncodedWordMatches.decProcess : EncodedWordMatches.Statement .decProcess := by
  unfold EncodedWordMatches.Statement; decide

theorem EncodedWordMatches.decCanDecode : EncodedWordMatches.Statement .decCanDecode := by
  unfold EncodedWordMatches.Statement; decide

theorem EncodedWordMatches.decRank : EncodedWordMatches.Statement .decRank := by
  unfold EncodedWordMatches.Statement; decide

theorem EncodedWordMatches.decGet (idx : Nat) : EncodedWordMatches.Statement (.decGet idx) :=
  (wordS_masked _ idx).trans rfl

theorem EncodedWordMatches.decNext : EncodedWordMatches.Statement .decNext := by
  unfold EncodedWordMatches.Statement; decide

theorem EncodedWordMatches.decState : EncodedWordMatches.Statement .decState := by
  unfold EncodedWordMatches.Statement; decide

end Sys2Proof.Laws
end

