-- ==== Sys2Proof/Laws/State.lean ====
section
/-! SUPPORT. The shared operations field by field: one lemma per field per operation, all true by definition, so that
no later proof unfolds a record update. -/

namespace Sys2Proof.Machine

/-! `ok` -/

@[simp] theorem ok_arg (v : Word) (s : State) : (ok v s).arg = s.arg := rfl
@[simp] theorem ok_ilen (v : Word) (s : State) : (ok v s).ilen = s.ilen := rfl
@[simp] theorem ok_status (v : Word) (s : State) : (ok v s).status = 0x00#8 := rfl
@[simp] theorem ok_result (v : Word) (s : State) : (ok v s).result = v := rfl
@[simp] theorem ok_olen (v : Word) (s : State) : (ok v s).olen = s.olen := rfl
@[simp] theorem ok_errFfz (v : Word) (s : State) : (ok v s).errFfz = s.errFfz := rfl
@[simp] theorem ok_errSing (v : Word) (s : State) : (ok v s).errSing = s.errSing := rfl
@[simp] theorem ok_cap (v : Word) (s : State) : (ok v s).cap = s.cap := rfl
@[simp] theorem ok_ibuf (v : Word) (s : State) : (ok v s).ibuf = s.ibuf := rfl
@[simp] theorem ok_obuf (v : Word) (s : State) : (ok v s).obuf = s.obuf := rfl
@[simp] theorem ok_enc (v : Word) (s : State) : (ok v s).enc = s.enc := rfl
@[simp] theorem ok_dec (v : Word) (s : State) : (ok v s).dec = s.dec := rfl
@[simp] theorem ok_pending (v : Word) (s : State) : (ok v s).pending = s.pending := rfl
@[simp] theorem ok_reply (v : Word) (s : State) : (ok v s).reply = s.reply := rfl
@[simp] theorem ok_drawn (v : Word) (s : State) : (ok v s).drawn = s.drawn := rfl
@[simp] theorem ok_resets (v : Word) (s : State) : (ok v s).resets = s.resets := rfl

/-! `fail` -/

@[simp] theorem fail_arg (c : Status) (s : State) : (fail c s).arg = s.arg := rfl
@[simp] theorem fail_ilen (c : Status) (s : State) : (fail c s).ilen = s.ilen := rfl
@[simp] theorem fail_status (c : Status) (s : State) : (fail c s).status = c.code := rfl
@[simp] theorem fail_result (c : Status) (s : State) : (fail c s).result = 0#32 := rfl
@[simp] theorem fail_olen (c : Status) (s : State) : (fail c s).olen = s.olen := rfl
@[simp] theorem fail_errFfz (c : Status) (s : State) : (fail c s).errFfz = s.errFfz := rfl
@[simp] theorem fail_errSing (c : Status) (s : State) : (fail c s).errSing = s.errSing := rfl
@[simp] theorem fail_cap (c : Status) (s : State) : (fail c s).cap = s.cap := rfl
@[simp] theorem fail_ibuf (c : Status) (s : State) : (fail c s).ibuf = s.ibuf := rfl
@[simp] theorem fail_obuf (c : Status) (s : State) : (fail c s).obuf = s.obuf := rfl
@[simp] theorem fail_enc (c : Status) (s : State) : (fail c s).enc = s.enc := rfl
@[simp] theorem fail_dec (c : Status) (s : State) : (fail c s).dec = s.dec := rfl
@[simp] theorem fail_pending (c : Status) (s : State) : (fail c s).pending = s.pending := rfl
@[simp] theorem fail_reply (c : Status) (s : State) : (fail c s).reply = s.reply := rfl
@[simp] theorem fail_drawn (c : Status) (s : State) : (fail c s).drawn = s.drawn := rfl
@[simp] theorem fail_resets (c : Status) (s : State) : (fail c s).resets = s.resets := rfl

/-! `failProducing` -/

@[simp] theorem failProducing_arg (c : Status) (s : State) : (failProducing c s).arg = s.arg := rfl
@[simp] theorem failProducing_ilen (c : Status) (s : State) : (failProducing c s).ilen = s.ilen := rfl
@[simp] theorem failProducing_status (c : Status) (s : State) : (failProducing c s).status = c.code := rfl
@[simp] theorem failProducing_result (c : Status) (s : State) : (failProducing c s).result = 0#32 := rfl
@[simp] theorem failProducing_olen (c : Status) (s : State) : (failProducing c s).olen = 0#32 := rfl
@[simp] theorem failProducing_errFfz (c : Status) (s : State) : (failProducing c s).errFfz = s.errFfz := rfl
@[simp] theorem failProducing_errSing (c : Status) (s : State) : (failProducing c s).errSing = s.errSing := rfl
@[simp] theorem failProducing_cap (c : Status) (s : State) : (failProducing c s).cap = s.cap := rfl
@[simp] theorem failProducing_ibuf (c : Status) (s : State) : (failProducing c s).ibuf = s.ibuf := rfl
@[simp] theorem failProducing_obuf (c : Status) (s : State) : (failProducing c s).obuf = s.obuf := rfl
@[simp] theorem failProducing_enc (c : Status) (s : State) : (failProducing c s).enc = s.enc := rfl
@[simp] theorem failProducing_dec (c : Status) (s : State) : (failProducing c s).dec = s.dec := rfl
@[simp] theorem failProducing_pending (c : Status) (s : State) : (failProducing c s).pending = s.pending := rfl
@[simp] theorem failProducing_reply (c : Status) (s : State) : (failProducing c s).reply = s.reply := rfl
@[simp] theorem failProducing_drawn (c : Status) (s : State) : (failProducing c s).drawn = s.drawn := rfl
@[simp] theorem failProducing_resets (c : Status) (s : State) : (failProducing c s).resets = s.resets := rfl

/-! `setFfz` -/

@[simp] theorem setFfz_arg (s : State) : (setFfz s).arg = s.arg := rfl
@[simp] theorem setFfz_ilen (s : State) : (setFfz s).ilen = s.ilen := rfl
@[simp] theorem setFfz_status (s : State) : (setFfz s).status = s.status := rfl
@[simp] theorem setFfz_result (s : State) : (setFfz s).result = s.result := rfl
@[simp] theorem setFfz_olen (s : State) : (setFfz s).olen = s.olen := rfl
@[simp] theorem setFfz_errFfz (s : State) : (setFfz s).errFfz = true := rfl
@[simp] theorem setFfz_errSing (s : State) : (setFfz s).errSing = s.errSing := rfl
@[simp] theorem setFfz_cap (s : State) : (setFfz s).cap = s.cap := rfl
@[simp] theorem setFfz_ibuf (s : State) : (setFfz s).ibuf = s.ibuf := rfl
@[simp] theorem setFfz_obuf (s : State) : (setFfz s).obuf = s.obuf := rfl
@[simp] theorem setFfz_enc (s : State) : (setFfz s).enc = s.enc := rfl
@[simp] theorem setFfz_dec (s : State) : (setFfz s).dec = s.dec := rfl
@[simp] theorem setFfz_pending (s : State) : (setFfz s).pending = s.pending := rfl
@[simp] theorem setFfz_reply (s : State) : (setFfz s).reply = s.reply := rfl
@[simp] theorem setFfz_drawn (s : State) : (setFfz s).drawn = s.drawn := rfl
@[simp] theorem setFfz_resets (s : State) : (setFfz s).resets = s.resets := rfl

/-! `setSing` -/

@[simp] theorem setSing_arg (s : State) : (setSing s).arg = s.arg := rfl
@[simp] theorem setSing_ilen (s : State) : (setSing s).ilen = s.ilen := rfl
@[simp] theorem setSing_status (s : State) : (setSing s).status = s.status := rfl
@[simp] theorem setSing_result (s : State) : (setSing s).result = s.result := rfl
@[simp] theorem setSing_olen (s : State) : (setSing s).olen = s.olen := rfl
@[simp] theorem setSing_errFfz (s : State) : (setSing s).errFfz = s.errFfz := rfl
@[simp] theorem setSing_errSing (s : State) : (setSing s).errSing = true := rfl
@[simp] theorem setSing_cap (s : State) : (setSing s).cap = s.cap := rfl
@[simp] theorem setSing_ibuf (s : State) : (setSing s).ibuf = s.ibuf := rfl
@[simp] theorem setSing_obuf (s : State) : (setSing s).obuf = s.obuf := rfl
@[simp] theorem setSing_enc (s : State) : (setSing s).enc = s.enc := rfl
@[simp] theorem setSing_dec (s : State) : (setSing s).dec = s.dec := rfl
@[simp] theorem setSing_pending (s : State) : (setSing s).pending = s.pending := rfl
@[simp] theorem setSing_reply (s : State) : (setSing s).reply = s.reply := rfl
@[simp] theorem setSing_drawn (s : State) : (setSing s).drawn = s.drawn := rfl
@[simp] theorem setSing_resets (s : State) : (setSing s).resets = s.resets := rfl

/-! `failZeroDivisor` -/

@[simp] theorem failZeroDivisor_arg (s : State) : (failZeroDivisor s).arg = s.arg := rfl
@[simp] theorem failZeroDivisor_ilen (s : State) : (failZeroDivisor s).ilen = s.ilen := rfl
@[simp] theorem failZeroDivisor_status (s : State) : (failZeroDivisor s).status = 0x10#8 := rfl
@[simp] theorem failZeroDivisor_result (s : State) : (failZeroDivisor s).result = 0#32 := rfl
@[simp] theorem failZeroDivisor_olen (s : State) : (failZeroDivisor s).olen = s.olen := rfl
@[simp] theorem failZeroDivisor_errFfz (s : State) : (failZeroDivisor s).errFfz = true := rfl
@[simp] theorem failZeroDivisor_errSing (s : State) : (failZeroDivisor s).errSing = s.errSing := rfl
@[simp] theorem failZeroDivisor_cap (s : State) : (failZeroDivisor s).cap = s.cap := rfl
@[simp] theorem failZeroDivisor_ibuf (s : State) : (failZeroDivisor s).ibuf = s.ibuf := rfl
@[simp] theorem failZeroDivisor_obuf (s : State) : (failZeroDivisor s).obuf = s.obuf := rfl
@[simp] theorem failZeroDivisor_enc (s : State) : (failZeroDivisor s).enc = s.enc := rfl
@[simp] theorem failZeroDivisor_dec (s : State) : (failZeroDivisor s).dec = s.dec := rfl
@[simp] theorem failZeroDivisor_pending (s : State) : (failZeroDivisor s).pending = s.pending := rfl
@[simp] theorem failZeroDivisor_reply (s : State) : (failZeroDivisor s).reply = s.reply := rfl
@[simp] theorem failZeroDivisor_drawn (s : State) : (failZeroDivisor s).drawn = s.drawn := rfl
@[simp] theorem failZeroDivisor_resets (s : State) : (failZeroDivisor s).resets = s.resets := rfl

/-! `emit` -/

@[simp] theorem emit_arg (c y : List Byte) (s : State) : (emit c y s).arg = s.arg := rfl
@[simp] theorem emit_ilen (c y : List Byte) (s : State) : (emit c y s).ilen = s.ilen := rfl
@[simp] theorem emit_status (c y : List Byte) (s : State) : (emit c y s).status = s.status := rfl
@[simp] theorem emit_result (c y : List Byte) (s : State) : (emit c y s).result = s.result := rfl
@[simp] theorem emit_olen (c y : List Byte) (s : State) : (emit c y s).olen = BitVec.ofNat 32 (8 + s.enc.n.toNat + s.enc.p.toNat) := rfl
@[simp] theorem emit_errFfz (c y : List Byte) (s : State) : (emit c y s).errFfz = s.errFfz := rfl
@[simp] theorem emit_errSing (c y : List Byte) (s : State) : (emit c y s).errSing = s.errSing := rfl
@[simp] theorem emit_cap (c y : List Byte) (s : State) : (emit c y s).cap = s.cap := rfl
@[simp] theorem emit_ibuf (c y : List Byte) (s : State) : (emit c y s).ibuf = s.ibuf := rfl
@[simp] theorem emit_obuf (c y : List Byte) (s : State) : (emit c y s).obuf = s.obuf.writeBytes 0 (packetBytes s.enc.gen s.enc.n c y) := rfl
@[simp] theorem emit_enc (c y : List Byte) (s : State) : (emit c y s).enc = s.enc := rfl
@[simp] theorem emit_dec (c y : List Byte) (s : State) : (emit c y s).dec = s.dec := rfl
@[simp] theorem emit_pending (c y : List Byte) (s : State) : (emit c y s).pending = s.pending := rfl
@[simp] theorem emit_reply (c y : List Byte) (s : State) : (emit c y s).reply = s.reply := rfl
@[simp] theorem emit_drawn (c y : List Byte) (s : State) : (emit c y s).drawn = s.drawn := rfl
@[simp] theorem emit_resets (c y : List Byte) (s : State) : (emit c y s).resets = s.resets := rfl

/-! `resetCore` -/

@[simp] theorem resetCore_arg (s : State) : (resetCore s).arg = 0#32 := rfl
@[simp] theorem resetCore_ilen (s : State) : (resetCore s).ilen = 0#32 := rfl
@[simp] theorem resetCore_status (s : State) : (resetCore s).status = 0#8 := rfl
@[simp] theorem resetCore_result (s : State) : (resetCore s).result = 0#32 := rfl
@[simp] theorem resetCore_olen (s : State) : (resetCore s).olen = 0#32 := rfl
@[simp] theorem resetCore_errFfz (s : State) : (resetCore s).errFfz = false := rfl
@[simp] theorem resetCore_errSing (s : State) : (resetCore s).errSing = false := rfl
@[simp] theorem resetCore_cap (s : State) : (resetCore s).cap = s.cap := rfl
@[simp] theorem resetCore_ibuf (s : State) : (resetCore s).ibuf = Memory.unspecified (s.resets + 1) .ibuf := rfl
@[simp] theorem resetCore_obuf (s : State) : (resetCore s).obuf = Memory.unspecified (s.resets + 1) .obuf := rfl
@[simp] theorem resetCore_enc (s : State) : (resetCore s).enc = (State.afterReset s.cap (s.resets + 1)).enc := rfl
@[simp] theorem resetCore_dec (s : State) : (resetCore s).dec = (State.afterReset s.cap (s.resets + 1)).dec := rfl
@[simp] theorem resetCore_pending (s : State) : (resetCore s).pending = s.pending := rfl
@[simp] theorem resetCore_reply (s : State) : (resetCore s).reply = .nothing := rfl
@[simp] theorem resetCore_drawn (s : State) : (resetCore s).drawn = s.drawn := rfl
@[simp] theorem resetCore_resets (s : State) : (resetCore s).resets = s.resets + 1 := rfl

/-! `withCommand` -/

@[simp] theorem withCommand_arg (s : State) (v : Word) : (s.withCommand v).arg = s.arg := rfl
@[simp] theorem withCommand_ilen (s : State) (v : Word) : (s.withCommand v).ilen = s.ilen := rfl
@[simp] theorem withCommand_status (s : State) (v : Word) : (s.withCommand v).status = s.status := rfl
@[simp] theorem withCommand_result (s : State) (v : Word) : (s.withCommand v).result = s.result := rfl
@[simp] theorem withCommand_olen (s : State) (v : Word) : (s.withCommand v).olen = s.olen := rfl
@[simp] theorem withCommand_errFfz (s : State) (v : Word) : (s.withCommand v).errFfz = s.errFfz := rfl
@[simp] theorem withCommand_errSing (s : State) (v : Word) : (s.withCommand v).errSing = s.errSing := rfl
@[simp] theorem withCommand_cap (s : State) (v : Word) : (s.withCommand v).cap = s.cap := rfl
@[simp] theorem withCommand_ibuf (s : State) (v : Word) : (s.withCommand v).ibuf = s.ibuf := rfl
@[simp] theorem withCommand_obuf (s : State) (v : Word) : (s.withCommand v).obuf = s.obuf := rfl
@[simp] theorem withCommand_enc (s : State) (v : Word) : (s.withCommand v).enc = s.enc := rfl
@[simp] theorem withCommand_dec (s : State) (v : Word) : (s.withCommand v).dec = s.dec := rfl
@[simp] theorem withCommand_pending (s : State) (v : Word) : (s.withCommand v).pending = .access (.writeReg 0 v) :: s.pending := rfl
@[simp] theorem withCommand_reply (s : State) (v : Word) : (s.withCommand v).reply = s.reply := rfl
@[simp] theorem withCommand_drawn (s : State) (v : Word) : (s.withCommand v).drawn = s.drawn := rfl
@[simp] theorem withCommand_resets (s : State) (v : Word) : (s.withCommand v).resets = s.resets := rfl

/-! `storeElimination`: the DEC unit only. -/

theorem storeElimination_frame (w : Elimination) (s : State) : storeElimination w s = { s with dec := (storeElimination w s).dec } := rfl
@[simp] theorem storeElimination_arg (w : Elimination) (s : State) : (storeElimination w s).arg = s.arg := rfl
@[simp] theorem storeElimination_ilen (w : Elimination) (s : State) : (storeElimination w s).ilen = s.ilen := rfl
@[simp] theorem storeElimination_status (w : Elimination) (s : State) : (storeElimination w s).status = s.status := rfl
@[simp] theorem storeElimination_result (w : Elimination) (s : State) : (storeElimination w s).result = s.result := rfl
@[simp] theorem storeElimination_olen (w : Elimination) (s : State) : (storeElimination w s).olen = s.olen := rfl
@[simp] theorem storeElimination_errFfz (w : Elimination) (s : State) : (storeElimination w s).errFfz = s.errFfz := rfl
@[simp] theorem storeElimination_errSing (w : Elimination) (s : State) : (storeElimination w s).errSing = s.errSing := rfl
@[simp] theorem storeElimination_cap (w : Elimination) (s : State) : (storeElimination w s).cap = s.cap := rfl
@[simp] theorem storeElimination_ibuf (w : Elimination) (s : State) : (storeElimination w s).ibuf = s.ibuf := rfl
@[simp] theorem storeElimination_obuf (w : Elimination) (s : State) : (storeElimination w s).obuf = s.obuf := rfl
@[simp] theorem storeElimination_enc (w : Elimination) (s : State) : (storeElimination w s).enc = s.enc := rfl
@[simp] theorem storeElimination_pending (w : Elimination) (s : State) : (storeElimination w s).pending = s.pending := rfl
@[simp] theorem storeElimination_reply (w : Elimination) (s : State) : (storeElimination w s).reply = s.reply := rfl
@[simp] theorem storeElimination_drawn (w : Elimination) (s : State) : (storeElimination w s).drawn = s.drawn := rfl
@[simp] theorem storeElimination_resets (w : Elimination) (s : State) : (storeElimination w s).resets = s.resets := rfl
@[simp] theorem storeElimination_dec_n (w : Elimination) (s : State) : (storeElimination w s).dec.n = s.dec.n := rfl
@[simp] theorem storeElimination_dec_p (w : Elimination) (s : State) : (storeElimination w s).dec.p = s.dec.p := rfl
@[simp] theorem storeElimination_dec_gen (w : Elimination) (s : State) : (storeElimination w s).dec.gen = s.dec.gen := rfl
@[simp] theorem storeElimination_dec_c (w : Elimination) (s : State) : (storeElimination w s).dec.c = s.dec.c.writeRows s.nMax 0 w.c := rfl
@[simp] theorem storeElimination_dec_y (w : Elimination) (s : State) : (storeElimination w s).dec.y = s.dec.y.writeRows s.pMax 0 w.y := rfl
@[simp] theorem storeElimination_dec_rows (w : Elimination) (s : State) : (storeElimination w s).dec.rows = s.dec.rows := rfl
@[simp] theorem storeElimination_dec_rank (w : Elimination) (s : State) : (storeElimination w s).dec.rank = s.dec.rank := rfl
@[simp] theorem storeElimination_dec_state (w : Elimination) (s : State) : (storeElimination w s).dec.state = s.dec.state := rfl
@[simp] theorem storeElimination_dec_out (w : Elimination) (s : State) : (storeElimination w s).dec.out = s.dec.out := rfl

/-! `finishDecode`: the DEC unit only. -/

theorem finishDecode_frame (w : Elimination) (s : State) : finishDecode w s = { s with dec := (finishDecode w s).dec } := rfl
@[simp] theorem finishDecode_arg (w : Elimination) (s : State) : (finishDecode w s).arg = s.arg := rfl
@[simp] theorem finishDecode_ilen (w : Elimination) (s : State) : (finishDecode w s).ilen = s.ilen := rfl
@[simp] theorem finishDecode_status (w : Elimination) (s : State) : (finishDecode w s).status = s.status := rfl
@[simp] theorem finishDecode_result (w : Elimination) (s : State) : (finishDecode w s).result = s.result := rfl
@[simp] theorem finishDecode_olen (w : Elimination) (s : State) : (finishDecode w s).olen = s.olen := rfl
@[simp] theorem finishDecode_errFfz (w : Elimination) (s : State) : (finishDecode w s).errFfz = s.errFfz := rfl
@[simp] theorem finishDecode_errSing (w : Elimination) (s : State) : (finishDecode w s).errSing = s.errSing := rfl
@[simp] theorem finishDecode_cap (w : Elimination) (s : State) : (finishDecode w s).cap = s.cap := rfl
@[simp] theorem finishDecode_ibuf (w : Elimination) (s : State) : (finishDecode w s).ibuf = s.ibuf := rfl
@[simp] theorem finishDecode_obuf (w : Elimination) (s : State) : (finishDecode w s).obuf = s.obuf := rfl
@[simp] theorem finishDecode_enc (w : Elimination) (s : State) : (finishDecode w s).enc = s.enc := rfl
@[simp] theorem finishDecode_pending (w : Elimination) (s : State) : (finishDecode w s).pending = s.pending := rfl
@[simp] theorem finishDecode_reply (w : Elimination) (s : State) : (finishDecode w s).reply = s.reply := rfl
@[simp] theorem finishDecode_drawn (w : Elimination) (s : State) : (finishDecode w s).drawn = s.drawn := rfl
@[simp] theorem finishDecode_resets (w : Elimination) (s : State) : (finishDecode w s).resets = s.resets := rfl
@[simp] theorem finishDecode_dec_n (w : Elimination) (s : State) : (finishDecode w s).dec.n = s.dec.n := rfl
@[simp] theorem finishDecode_dec_p (w : Elimination) (s : State) : (finishDecode w s).dec.p = s.dec.p := rfl
@[simp] theorem finishDecode_dec_gen (w : Elimination) (s : State) : (finishDecode w s).dec.gen = s.dec.gen := rfl
@[simp] theorem finishDecode_dec_c (w : Elimination) (s : State) : (finishDecode w s).dec.c = s.dec.c := rfl
@[simp] theorem finishDecode_dec_y (w : Elimination) (s : State) : (finishDecode w s).dec.y = s.dec.y := rfl
@[simp] theorem finishDecode_dec_rows (w : Elimination) (s : State) : (finishDecode w s).dec.rows = s.dec.rows := rfl
@[simp] theorem finishDecode_dec_rank (w : Elimination) (s : State) : (finishDecode w s).dec.rank = s.dec.rank := rfl
@[simp] theorem finishDecode_dec_state (w : Elimination) (s : State) : (finishDecode w s).dec.state = .decoded := rfl
@[simp] theorem finishDecode_dec_out (w : Elimination) (s : State) : (finishDecode w s).dec.out = s.dec.out.writeRows s.pMax 0 w.y := rfl

/-! `storePacket`: the DEC unit only. -/

theorem storePacket_frame (s : State) : storePacket s = { s with dec := (storePacket s).dec } := rfl
@[simp] theorem storePacket_arg (s : State) : (storePacket s).arg = s.arg := rfl
@[simp] theorem storePacket_ilen (s : State) : (storePacket s).ilen = s.ilen := rfl
@[simp] theorem storePacket_status (s : State) : (storePacket s).status = s.status := rfl
@[simp] theorem storePacket_result (s : State) : (storePacket s).result = s.result := rfl
@[simp] theorem storePacket_olen (s : State) : (storePacket s).olen = s.olen := rfl
@[simp] theorem storePacket_errFfz (s : State) : (storePacket s).errFfz = s.errFfz := rfl
@[simp] theorem storePacket_errSing (s : State) : (storePacket s).errSing = s.errSing := rfl
@[simp] theorem storePacket_cap (s : State) : (storePacket s).cap = s.cap := rfl
@[simp] theorem storePacket_ibuf (s : State) : (storePacket s).ibuf = s.ibuf := rfl
@[simp] theorem storePacket_obuf (s : State) : (storePacket s).obuf = s.obuf := rfl
@[simp] theorem storePacket_enc (s : State) : (storePacket s).enc = s.enc := rfl
@[simp] theorem storePacket_pending (s : State) : (storePacket s).pending = s.pending := rfl
@[simp] theorem storePacket_reply (s : State) : (storePacket s).reply = s.reply := rfl
@[simp] theorem storePacket_drawn (s : State) : (storePacket s).drawn = s.drawn := rfl
@[simp] theorem storePacket_resets (s : State) : (storePacket s).resets = s.resets := rfl
@[simp] theorem storePacket_dec_n (s : State) : (storePacket s).dec.n = s.dec.n := rfl
@[simp] theorem storePacket_dec_p (s : State) : (storePacket s).dec.p = s.dec.p := rfl
@[simp] theorem storePacket_dec_gen (s : State) : (storePacket s).dec.gen = s.dec.gen := rfl
@[simp] theorem storePacket_dec_c (s : State) : (storePacket s).dec.c = s.dec.c.writeRow s.nMax s.dec.rows (packetVector s.dec.n.toNat s.ibuf) := rfl
@[simp] theorem storePacket_dec_y (s : State) : (storePacket s).dec.y = s.dec.y.writeRow s.pMax s.dec.rows (packetPayload s.dec.n.toNat s.dec.p.toNat s.ibuf) := rfl
@[simp] theorem storePacket_dec_rows (s : State) : (storePacket s).dec.rows = s.dec.rows + 1 := rfl
@[simp] theorem storePacket_dec_rank (s : State) : (storePacket s).dec.rank = s.dec.rank := rfl
@[simp] theorem storePacket_dec_state (s : State) : (storePacket s).dec.state = s.dec.state := rfl
@[simp] theorem storePacket_dec_out (s : State) : (storePacket s).dec.out = s.dec.out := rfl

/-! `updateRank`: the DEC unit only. -/

theorem updateRank_frame (s : State) : updateRank s = { s with dec := (updateRank s).dec } := rfl
@[simp] theorem updateRank_arg (s : State) : (updateRank s).arg = s.arg := rfl
@[simp] theorem updateRank_ilen (s : State) : (updateRank s).ilen = s.ilen := rfl
@[simp] theorem updateRank_status (s : State) : (updateRank s).status = s.status := rfl
@[simp] theorem updateRank_result (s : State) : (updateRank s).result = s.result := rfl
@[simp] theorem updateRank_olen (s : State) : (updateRank s).olen = s.olen := rfl
@[simp] theorem updateRank_errFfz (s : State) : (updateRank s).errFfz = s.errFfz := rfl
@[simp] theorem updateRank_errSing (s : State) : (updateRank s).errSing = s.errSing := rfl
@[simp] theorem updateRank_cap (s : State) : (updateRank s).cap = s.cap := rfl
@[simp] theorem updateRank_ibuf (s : State) : (updateRank s).ibuf = s.ibuf := rfl
@[simp] theorem updateRank_obuf (s : State) : (updateRank s).obuf = s.obuf := rfl
@[simp] theorem updateRank_enc (s : State) : (updateRank s).enc = s.enc := rfl
@[simp] theorem updateRank_pending (s : State) : (updateRank s).pending = s.pending := rfl
@[simp] theorem updateRank_reply (s : State) : (updateRank s).reply = s.reply := rfl
@[simp] theorem updateRank_drawn (s : State) : (updateRank s).drawn = s.drawn := rfl
@[simp] theorem updateRank_resets (s : State) : (updateRank s).resets = s.resets := rfl
@[simp] theorem updateRank_dec_n (s : State) : (updateRank s).dec.n = s.dec.n := rfl
@[simp] theorem updateRank_dec_p (s : State) : (updateRank s).dec.p = s.dec.p := rfl
@[simp] theorem updateRank_dec_gen (s : State) : (updateRank s).dec.gen = s.dec.gen := rfl
@[simp] theorem updateRank_dec_c (s : State) : (updateRank s).dec.c = s.dec.c := rfl
@[simp] theorem updateRank_dec_y (s : State) : (updateRank s).dec.y = s.dec.y := rfl
@[simp] theorem updateRank_dec_rows (s : State) : (updateRank s).dec.rows = s.dec.rows := rfl
@[simp] theorem updateRank_dec_rank (s : State) : (updateRank s).dec.rank = rankOf s.dec.n.toNat s.decMatrix := rfl
@[simp] theorem updateRank_dec_state (s : State) : (updateRank s).dec.state = s.dec.state := rfl
@[simp] theorem updateRank_dec_out (s : State) : (updateRank s).dec.out = s.dec.out := rfl

/-! Sizes read from CAP only. -/

@[simp] theorem ok_nMax (v : Word) (s : State) : (ok v s).nMax = s.nMax := rfl
@[simp] theorem ok_pMax (v : Word) (s : State) : (ok v s).pMax = s.pMax := rfl
@[simp] theorem ok_bufCap (v : Word) (s : State) : (ok v s).bufCap = s.bufCap := rfl
@[simp] theorem fail_nMax (c : Status) (s : State) : (fail c s).nMax = s.nMax := rfl
@[simp] theorem fail_pMax (c : Status) (s : State) : (fail c s).pMax = s.pMax := rfl
@[simp] theorem fail_bufCap (c : Status) (s : State) : (fail c s).bufCap = s.bufCap := rfl
@[simp] theorem failProducing_nMax (c : Status) (s : State) : (failProducing c s).nMax = s.nMax := rfl
@[simp] theorem failProducing_pMax (c : Status) (s : State) : (failProducing c s).pMax = s.pMax := rfl
@[simp] theorem failProducing_bufCap (c : Status) (s : State) : (failProducing c s).bufCap = s.bufCap := rfl
@[simp] theorem setFfz_nMax (s : State) : (setFfz s).nMax = s.nMax := rfl
@[simp] theorem setFfz_pMax (s : State) : (setFfz s).pMax = s.pMax := rfl
@[simp] theorem setFfz_bufCap (s : State) : (setFfz s).bufCap = s.bufCap := rfl
@[simp] theorem setSing_nMax (s : State) : (setSing s).nMax = s.nMax := rfl
@[simp] theorem setSing_pMax (s : State) : (setSing s).pMax = s.pMax := rfl
@[simp] theorem setSing_bufCap (s : State) : (setSing s).bufCap = s.bufCap := rfl
@[simp] theorem failZeroDivisor_nMax (s : State) : (failZeroDivisor s).nMax = s.nMax := rfl
@[simp] theorem failZeroDivisor_pMax (s : State) : (failZeroDivisor s).pMax = s.pMax := rfl
@[simp] theorem failZeroDivisor_bufCap (s : State) : (failZeroDivisor s).bufCap = s.bufCap := rfl
@[simp] theorem emit_nMax (c y : List Byte) (s : State) : (emit c y s).nMax = s.nMax := rfl
@[simp] theorem emit_pMax (c y : List Byte) (s : State) : (emit c y s).pMax = s.pMax := rfl
@[simp] theorem emit_bufCap (c y : List Byte) (s : State) : (emit c y s).bufCap = s.bufCap := rfl
@[simp] theorem resetCore_nMax (s : State) : (resetCore s).nMax = s.nMax := rfl
@[simp] theorem resetCore_pMax (s : State) : (resetCore s).pMax = s.pMax := rfl
@[simp] theorem resetCore_bufCap (s : State) : (resetCore s).bufCap = s.bufCap := rfl
@[simp] theorem withCommand_nMax (s : State) (v : Word) : (s.withCommand v).nMax = s.nMax := rfl
@[simp] theorem withCommand_pMax (s : State) (v : Word) : (s.withCommand v).pMax = s.pMax := rfl
@[simp] theorem withCommand_bufCap (s : State) (v : Word) : (s.withCommand v).bufCap = s.bufCap := rfl
@[simp] theorem storeElimination_nMax (w : Elimination) (s : State) : (storeElimination w s).nMax = s.nMax := rfl
@[simp] theorem storeElimination_pMax (w : Elimination) (s : State) : (storeElimination w s).pMax = s.pMax := rfl
@[simp] theorem storeElimination_bufCap (w : Elimination) (s : State) : (storeElimination w s).bufCap = s.bufCap := rfl
@[simp] theorem finishDecode_nMax (w : Elimination) (s : State) : (finishDecode w s).nMax = s.nMax := rfl
@[simp] theorem finishDecode_pMax (w : Elimination) (s : State) : (finishDecode w s).pMax = s.pMax := rfl
@[simp] theorem finishDecode_bufCap (w : Elimination) (s : State) : (finishDecode w s).bufCap = s.bufCap := rfl
@[simp] theorem storePacket_nMax (s : State) : (storePacket s).nMax = s.nMax := rfl
@[simp] theorem storePacket_pMax (s : State) : (storePacket s).pMax = s.pMax := rfl
@[simp] theorem storePacket_bufCap (s : State) : (storePacket s).bufCap = s.bufCap := rfl
@[simp] theorem updateRank_nMax (s : State) : (updateRank s).nMax = s.nMax := rfl
@[simp] theorem updateRank_pMax (s : State) : (updateRank s).pMax = s.pMax := rfl
@[simp] theorem updateRank_bufCap (s : State) : (updateRank s).bufCap = s.bufCap := rfl

/-! The values of the status codes (60_exceptions.md R222). -/

@[simp] theorem Status.code_ok : Status.ok.code = 0x00#8 := rfl
@[simp] theorem Status.code_errIllegal : Status.errIllegal.code = 0x01#8 := rfl
@[simp] theorem Status.code_errNotInit : Status.errNotInit.code = 0x02#8 := rfl
@[simp] theorem Status.code_errParam : Status.errParam.code = 0x03#8 := rfl
@[simp] theorem Status.code_ffZero : Status.ffZero.code = 0x10#8 := rfl
@[simp] theorem Status.code_encFull : Status.encFull.code = 0x20#8 := rfl
@[simp] theorem Status.code_encDup : Status.encDup.code = 0x21#8 := rfl
@[simp] theorem Status.code_encRange : Status.encRange.code = 0x22#8 := rfl
@[simp] theorem Status.code_encEmpty : Status.encEmpty.code = 0x23#8 := rfl
@[simp] theorem Status.code_encAbsent : Status.encAbsent.code = 0x24#8 := rfl
@[simp] theorem Status.code_decDone : Status.decDone.code = 0x30#8 := rfl
@[simp] theorem Status.code_decWrongGen : Status.decWrongGen.code = 0x31#8 := rfl
@[simp] theorem Status.code_decNoRow : Status.decNoRow.code = 0x32#8 := rfl
@[simp] theorem Status.code_decMalformed : Status.decMalformed.code = 0x33#8 := rfl
@[simp] theorem Status.code_decNotDecoded : Status.decNotDecoded.code = 0x34#8 := rfl
@[simp] theorem Status.code_decRange : Status.decRange.code = 0x35#8 := rfl
@[simp] theorem Status.code_decSingular : Status.decSingular.code = 0x36#8 := rfl

/-- Every status code is one of the table (60_exceptions.md R222). -/
theorem Status.code_mem (c : Status) : c.code ∈ statusCodes := by cases c <;> decide

/-- A failure's code is not 0 unless it is `ok` (60_exceptions.md R220). -/
theorem Status.code_ne_zero (c : Status) (h : c ≠ .ok) : c.code ≠ 0x00#8 := by
  cases c <;> first | exact absurd rfl h | decide

/-! `decodeRun` (42_decoder.md R192, R193): what it can do, said once. -/

/-- decode() touches the DEC unit and ERR.SING only. -/
theorem decodeRun_frame (s : State) :
    decodeRun s = { s with dec := (decodeRun s).dec, errSing := (decodeRun s).errSing } := by
  unfold decodeRun
  dsimp only
  split <;> rfl

/-- decode() keeps the sizes, the generation id, the row count and the rank (42_decoder.md R192, R193). -/
theorem decodeRun_dec (s : State) :
    (decodeRun s).dec.n = s.dec.n ∧ (decodeRun s).dec.p = s.dec.p ∧ (decodeRun s).dec.gen = s.dec.gen ∧
      (decodeRun s).dec.rows = s.dec.rows ∧ (decodeRun s).dec.rank = s.dec.rank := by
  unfold decodeRun
  dsimp only
  split <;> exact ⟨rfl, rfl, rfl, rfl, rfl⟩

/-- decode() either aborts, sets SING and leaves the state tag and the cache, or ends in DECODED (42_decoder.md R192,
R193). -/
theorem decodeRun_cases (s : State) :
    ((gaussJordan s.dec.n.toNat s.decMatrix s.decPayloads).aborted = true ∧
        decodeRun s = setSing (storeElimination (gaussJordan s.dec.n.toNat s.decMatrix s.decPayloads) s)) ∨
      ((gaussJordan s.dec.n.toNat s.decMatrix s.decPayloads).aborted = false ∧
        decodeRun s = finishDecode (gaussJordan s.dec.n.toNat s.decMatrix s.decPayloads)
          (storeElimination (gaussJordan s.dec.n.toNat s.decMatrix s.decPayloads) s)) := by
  unfold decodeRun
  dsimp only
  split
  · exact .inl ⟨by assumption, rfl⟩
  · exact .inr ⟨by simp_all, rfl⟩

/-- An accepted packet touches the DEC unit and ERR.SING only (42_decoder.md R184). -/
theorem acceptPacket_frame (s : State) :
    acceptPacket s = { s with dec := (acceptPacket s).dec, errSing := (acceptPacket s).errSing } := by
  unfold acceptPacket decodeAtFullRank
  split
  · rw [decodeRun_frame]; rfl
  · rfl

/-- The lazy decode of DEC_GET touches the DEC unit and ERR.SING only (42_decoder.md R196). -/
theorem lazyDecode_frame (s : State) :
    lazyDecode s = { s with dec := (lazyDecode s).dec, errSing := (lazyDecode s).errSing } := by
  unfold lazyDecode
  split
  · exact decodeRun_frame s
  · rfl

end Sys2Proof.Machine
end

