-- ==== Sys2Proof/Tests/Slice0.lean ====
section
/-! SUPPORT. Tests: the WellFormed smoke test, words decoded by hand from 30_encoding.md, single steps against
95_test_vectors.md, and for every statement with hypotheses a state and operands that meet them. -/

namespace Sys2Proof.Tests
open Sys2Proof Sys2Proof.Machine

/-! Ill-formed terms, one per check. -/

theorem test_wellFormed_refuses_encAdd_65536 : Instr.wellFormed (.encAdd 65536) = false := by decide
theorem test_wellFormed_refuses_encGenUncoded_65536 : Instr.wellFormed (.encGenUncoded 65536) = false := by decide
theorem test_wellFormed_refuses_decGet_65536 : Instr.wellFormed (.decGet 65536) = false := by decide
theorem test_wellFormed_accepts_65535 : Instr.wellFormed (.encAdd 65535) = true := by decide

/-! Words written out from the formats of 30_encoding.md R91 and the opcodes of R93 (examples of R99 and of
95_test_vectors.md parts 2.2 and 2.3). -/

theorem test_decode_ffAdd : decode 0b00000001_01010011_11001010_00000000#32 = .ok (.ffAdd 0x53#8 0xCA#8) := by rfl
theorem test_decode_ffSub : decode 0b00000010_10011001_11001010_00000000#32 = .ok (.ffSub 0x99#8 0xCA#8) := by rfl
theorem test_decode_ffMul : decode 0b00000011_01010011_11001010_00000000#32 = .ok (.ffMul 0x53#8 0xCA#8) := by rfl
theorem test_decode_ffDiv : decode 0b00000100_10001111_11001010_00000000#32 = .ok (.ffDiv 0x8F#8 0xCA#8) := by rfl
theorem test_decode_ffInv : decode 0b00000101_01010011_00000000_00000000#32 = .ok (.ffInv 0x53#8) := by rfl
theorem test_decode_encInit : decode 0b00010000_00000000_00000000_00000000#32 = .ok .encInit := by rfl
theorem test_decode_encAdd : decode 0b00010001_00000000_11111111_11111111#32 = .ok (.encAdd 65535) := by rfl
theorem test_decode_encComplete : decode 0b00010010_00000000_00000000_00000000#32 = .ok .encComplete := by rfl
theorem test_decode_encGenCoded : decode 0b00010011_00000000_00000000_00000000#32 = .ok .encGenCoded := by rfl
theorem test_decode_encGenUncoded : decode 0b00010100_00000000_00000001_00000010#32 = .ok (.encGenUncoded 258) := by rfl
theorem test_decode_encNext : decode 0b00010101_00000000_00000000_00000000#32 = .ok .encNext := by rfl
theorem test_decode_decInit : decode 0b00100000_00000000_00000000_00000000#32 = .ok .decInit := by rfl
theorem test_decode_decProcess : decode 0b00100001_00000000_00000000_00000000#32 = .ok .decProcess := by rfl
theorem test_decode_decCanDecode : decode 0b00100010_00000000_00000000_00000000#32 = .ok .decCanDecode := by rfl
theorem test_decode_decRank : decode 0b00100011_00000000_00000000_00000000#32 = .ok .decRank := by rfl
theorem test_decode_decGet : decode 0b00100100_00000000_00000000_00000001#32 = .ok (.decGet 1) := by rfl
theorem test_decode_decNext : decode 0b00100101_00000000_00000000_00000000#32 = .ok .decNext := by rfl
theorem test_decode_decState : decode 0b00100110_00000000_00000000_00000000#32 = .ok .decState := by rfl

/-- Illegal words of 95_test_vectors.md, vectors E1 to E13. -/
theorem test_decode_illegal :
    decode 0x00000000#32 = .error .noSuchOpcode ∧ decode 0x01000001#32 = .error .reservedNotZero ∧
      decode 0x05010100#32 = .error .reservedNotZero ∧ decode 0x05010001#32 = .error .reservedNotZero ∧
      decode 0x06000000#32 = .error .noSuchOpcode ∧ decode 0x10000001#32 = .error .reservedNotZero ∧
      decode 0x11010000#32 = .error .reservedNotZero ∧ decode 0x21000100#32 = .error .reservedNotZero ∧
      decode 0x24FF0000#32 = .error .reservedNotZero ∧ decode 0xFF000000#32 = .error .noSuchOpcode :=
  ⟨rfl, rfl, rfl, rfl, rfl, rfl, rfl, rfl, rfl, rfl⟩

/-! States. -/

/-- The state an outcome answers (the reset state where it answers none). -/
def after (o : Host.Outcome State Fault Refusal) : State :=
  match o with
  | .next t => t
  | .fault _ => State.reset
  | .refused _ => State.reset

/-- STATUS and RESULT after a command. -/
def outcome (i : Instr) (s : State) : Byte × Word := ((after (exec i s)).status, (after (exec i s)).result)

/-- An encoder of N = 2, P = 2 with the packets 01 02 and 03 04 (95_test_vectors.md N23). -/
def encPair : State :=
  { State.reset with
    enc :=
      { n := 2#16
        p := 2#16
        gen := 0#32
        valid := [true, true, false, false]
        buf := (Memory.zero.writeRow 16 0 [0x01#8, 0x02#8]).writeRow 16 1 [0x03#8, 0x04#8] } }

/-- An encoder of N = 2, P = 4 with slot 1 filled, IBUF = 01 .. 06, ILEN = 6 (95_test_vectors.md N12). -/
def encHalf : State :=
  { State.reset with
    ilen := 6#32
    ibuf := State.reset.ibuf.writeBytes 0 [0x01#8, 0x02#8, 0x03#8, 0x04#8, 0x05#8, 0x06#8]
    enc :=
      { n := 2#16
        p := 4#16
        gen := 0#32
        valid := [false, true, false, false]
        buf := Memory.zero.writeRow 16 1 [0xAA#8, 0xBB#8] } }

/-- An encoder of N = 2, P = 4 with no packet (95_test_vectors.md N22). -/
def encEmpty : State :=
  { encHalf with enc := { encHalf.enc with valid := [false, false, false, false], buf := Memory.zero } }

/-- IBUF with a packet written from index 0 and ILEN set, on a decoder unit. -/
def withPacket (bytes : List Byte) (d : DecUnit) : State :=
  { State.reset with
    ilen := BitVec.ofNat 32 bytes.length
    ibuf := State.reset.ibuf.writeBytes 0 bytes
    dec := d }

/-- A fresh decoder of N = 2, P = 2. -/
def freshDec : DecUnit :=
  { n := 2#16
    p := 2#16
    gen := 0#32
    c := Memory.zero
    y := Memory.zero
    rows := 0
    rank := 0
    state := .collecting
    out := Memory.zero }

/-- The decoder of 95_test_vectors.md D4: the first packet waits in IBUF. -/
def decFirst : State :=
  withPacket [0#8, 0#8, 0#8, 0#8, 0#8, 2#8, 0#8, 2#8, 0x02#8, 0x03#8, 0x07#8, 0x08#8] freshDec

/-- The decoder after D4. -/
def oneRow : DecUnit :=
  { freshDec with
    c := Memory.zero.writeRow 4 0 [0x02#8, 0x03#8]
    y := Memory.zero.writeRow 16 0 [0x07#8, 0x08#8]
    rows := 1
    rank := 1 }

/-- The decoder of D5: the second packet waits in IBUF. -/
def decSecond : State :=
  withPacket [0#8, 0#8, 0#8, 0#8, 0#8, 2#8, 0#8, 2#8, 0x00#8, 0x01#8, 0x03#8, 0x04#8] oneRow

/-- The decoder of D6: the first packet waits in IBUF again. -/
def decAgain : State := { decFirst with dec := oneRow }

/-- The decoder after D5: DECODED, packets 01 02 and 03 04. -/
def decDone : State :=
  { decSecond with
    dec :=
      { oneRow with
        c := (Memory.zero.writeRow 4 0 [0x01#8]).writeRow 4 1 [0x00#8, 0x01#8]
        y := (Memory.zero.writeRow 16 0 [0x01#8, 0x02#8]).writeRow 16 1 [0x03#8, 0x04#8]
        out := (Memory.zero.writeRow 16 0 [0x01#8, 0x02#8]).writeRow 16 1 [0x03#8, 0x04#8]
        rows := 2
        rank := 2
        state := .decoded } }

/-- The constructed state of D34: a held DECODABLE with a zero matrix. -/
def decSingularHeld : State :=
  { State.reset with dec := { freshDec with p := 1#16, rows := 2, rank := 2, state := .decodable } }

/-- The constructed state of D35: a held DECODABLE with an invertible matrix. -/
def decHeld : State :=
  { State.reset with
    dec :=
      { freshDec with
        p := 1#16
        c := (Memory.zero.writeRow 4 0 [0x02#8, 0x03#8]).writeRow 4 1 [0x00#8, 0x01#8]
        y := (Memory.zero.writeRow 16 0 [0x07#8]).writeRow 16 1 [0x03#8]
        rows := 2
        rank := 2
        state := .decodable } }

/-! FF commands (95_test_vectors.md 2.3). -/

theorem test_ffAdd : outcome (.ffAdd 0x53#8 0xCA#8) State.reset = (0x00#8, 0x99#32) := by decide
theorem test_ffSub : outcome (.ffSub 0x99#8 0xCA#8) State.reset = (0x00#8, 0x53#32) := by decide
theorem test_ffMul : outcome (.ffMul 0x53#8 0xCA#8) State.reset = (0x00#8, 0x8F#32) := by decide
theorem test_ffMul_modulus_255 : outcome (.ffMul 0x8E#8 0x02#8) State.reset = (0x00#8, 0x01#32) := by decide
theorem test_ffDiv : outcome (.ffDiv 0xFF#8 0x0F#8) State.reset = (0x00#8, 0x11#32) := by decide
theorem test_ffDiv_zero_by_zero :
    outcome (.ffDiv 0x00#8 0x00#8) State.reset = (0x10#8, 0#32) ∧
      (after (exec (.ffDiv 0x00#8 0x00#8) State.reset)).errWord = 1#32 := by decide
theorem test_ffInv : outcome (.ffInv 0x53#8) State.reset = (0x00#8, 0x8C#32) := by decide
theorem test_ffInv_one_reads_exp_255 : outcome (.ffInv 0x01#8) State.reset = (0x00#8, 0x01#32) := by decide

/-! ENC commands (95_test_vectors.md 2.4). -/

theorem test_encInit_maxima :
    let t := after (exec .encInit { State.reset with arg := 0x00100004#32 })
    t.status = 0x00#8 ∧ t.enc.n = 4#16 ∧ t.enc.p = 16#16 := by decide
theorem test_encInit_n_too_large : outcome .encInit { State.reset with arg := 0x00040005#32 } = (0x03#8, 0#32) := by decide
theorem test_encAdd_truncates :
    let t := after (exec (.encAdd 0) encHalf)
    t.status = 0x00#8 ∧ t.enc.buf.readBytes 0 5 = [0x01#8, 0x02#8, 0x03#8, 0x04#8, 0x00#8] ∧
      t.enc.valid = [true, true, false, false] := by decide
theorem test_encAdd_full_before_range : outcome (.encAdd 7) encPair = (0x20#8, 0#32) := by decide
theorem test_encComplete : outcome .encComplete encPair = (0x00#8, 1#32) ∧ outcome .encComplete encHalf = (0x00#8, 0#32) := by
  decide
/-- N23, with its draws (02, 03). -/
theorem test_encGenCoded :
    let t := encGenCoded [0x02#8, 0x03#8] encPair
    t.olen = 12#32 ∧ t.obuf.readBytes 0 12 =
      [0#8, 0#8, 0#8, 0#8, 0#8, 2#8, 0#8, 2#8, 0x02#8, 0x03#8, 0x07#8, 0x08#8] := by decide
theorem test_encGenCoded_empty : outcome .encGenCoded encEmpty = (0x23#8, 0#32) := by decide
/-- N27. -/
theorem test_encGenUncoded :
    let t := after (exec (.encGenUncoded 1) encPair)
    t.result = 1#32 ∧ t.obuf.readBytes 0 12 =
      [0#8, 0#8, 0#8, 0#8, 0#8, 2#8, 0#8, 2#8, 0x00#8, 0x01#8, 0x03#8, 0x04#8] := by decide
theorem test_encGenUncoded_absent : outcome (.encGenUncoded 0) encHalf = (0x24#8, 0#32) := by decide
/-- N31: the generation id wraps. -/
theorem test_encNext_wraps :
    let t := after (exec .encNext { encPair with enc := { encPair.enc with gen := 0xFFFFFFFF#32 } })
    t.enc.gen = 0#32 ∧ t.enc.count = 0 ∧ t.enc.n = 2#16 := by decide

/-! DEC commands (95_test_vectors.md 2.5). -/

theorem test_decInit :
    let t := after (exec .decInit { State.reset with arg := 0x00020003#32 })
    t.status = 0x00#8 ∧ t.dec.n = 3#16 ∧ t.dec.p = 2#16 ∧ t.dec.state = .collecting := by decide
theorem test_decInit_p_zero : outcome .decInit { State.reset with arg := 0x00000004#32 } = (0x03#8, 0#32) := by decide
/-- D6: stored, not innovative. -/
theorem test_decProcess_dependent :
    let t := after (exec .decProcess decAgain)
    t.result = 1#32 ∧ t.dec.rows = 2 ∧ t.dec.rank = 1 ∧ t.decMatrix = [[0x02#8, 0x03#8], [0x02#8, 0x03#8]] := by
  decide +kernel
/-- D5: the second packet completes the rank and the decode runs. -/
theorem test_decProcess_decodes :
    let t := after (exec .decProcess decSecond)
    t.result = 7#32 ∧ t.dec.state = .decoded ∧ t.decMatrix = [[0x01#8, 0x00#8], [0x00#8, 0x01#8]] ∧
      t.decPacket 0 = [0x01#8, 0x02#8] ∧ t.decPacket 1 = [0x03#8, 0x04#8] := by decide +kernel
theorem test_decCanDecode :
    outcome .decCanDecode decFirst = (0x00#8, 0#32) ∧ outcome .decCanDecode decDone = (0x00#8, 1#32) := by decide
theorem test_decRank : outcome .decRank decSecond = (0x00#8, 1#32) := by decide
theorem test_decState : outcome .decState decDone = (0x00#8, 2#32) := by decide
/-- D26. -/
theorem test_decGet :
    let t := after (exec (.decGet 1) decDone)
    t.result = 2#32 ∧ t.olen = 2#32 ∧ t.obuf.readBytes 0 2 = [0x03#8, 0x04#8] := by decide
/-- D34: the defensive abort. -/
theorem test_decGet_singular :
    let t := after (exec (.decGet 0) decSingularHeld)
    t.status = 0x36#8 ∧ t.errWord = 2#32 ∧ t.dec.state = .decodable := by decide +kernel
theorem test_decNext :
    let t := after (exec .decNext decDone)
    t.result = 1#32 ∧ t.dec.gen = 1#32 ∧ t.dec.rows = 0 ∧ t.dec.state = .collecting := by decide

/-! The host port (95_test_vectors.md 2.1). -/

/-- H12 through `withFetchWord`: the very next step runs the command. -/
theorem test_step_runs_word :
    let t := after (step (State.reset.withFetchWord 32 0x01010200))
    t.status = 0x00#8 ∧ t.result = 3#32 ∧ t.pending = [] := by decide
theorem test_step_illegal_word : (after (step (State.reset.withFetchWord 32 0x16000000))).status = 0x01#8 := by decide
/-- H2. -/
theorem test_read_cap :
    (after (step { State.reset with pending := [.access (.readReg 7)] })).reply = .word 0x00100004#32 := by decide
/-- H8: index 28 = BUF_CAP writes nothing. -/
theorem test_write_ibuf_at_cap :
    (after (step { State.reset with pending := [.access (.writeIBuf 28 0x5A#8)] })).ibuf = State.reset.ibuf := by decide

/-! The invariants hold in the states the statements are about. -/

theorem encInv_encHalf : EncInv encHalf where
  unconfigured := by decide
  genZero := by decide
  nBound := by decide
  pBound := by decide
  slots := by decide
  noSlotAbove := by decide

theorem encInv_encPair : EncInv encPair where
  unconfigured := by decide
  genZero := by decide
  nBound := by decide
  pBound := by decide
  slots := by decide
  noSlotAbove := by decide

theorem decInv_decSecond : DecInv decSecond where
  unconfigured := by decide
  nBound := by decide
  pBound := by decide
  rankRows := by decide
  rowsBound := by decide
  collecting := by decide
  notDecodable := by decide
  rankStored := by decide +kernel
  emptyRows := by decide +kernel
  decodedFull := by decide
  decodedIdentity := by decide
  decodedPackets := by decide
  noSing := by decide

theorem decInv_decFirst : DecInv decFirst where
  unconfigured := by decide
  nBound := by decide
  pBound := by decide
  rankRows := by decide
  rowsBound := by decide
  collecting := by decide
  notDecodable := by decide
  rankStored := by decide +kernel
  emptyRows := by decide +kernel
  decodedFull := by decide
  decodedIdentity := by decide
  decodedPackets := by decide
  noSing := by decide

theorem decInv_decDone : DecInv decDone where
  unconfigured := by decide
  nBound := by decide
  pBound := by decide
  rankRows := by decide
  rowsBound := by decide
  collecting := by decide
  notDecodable := by decide
  rankStored := by decide
  emptyRows := by decide
  decodedFull := by decide
  decodedIdentity := by decide +kernel
  decodedPackets := by decide +kernel
  noSing := by decide

theorem accepted_decFirst : PacketAccepted decFirst where
  configured := by decide
  length := by decide
  fits := by decide
  notDecoded := by decide
  gen := by decide
  size := by decide
  count := by decide
  freeRow := by decide

theorem accepted_decSecond : PacketAccepted decSecond where
  configured := by decide
  length := by decide
  fits := by decide
  notDecoded := by decide
  gen := by decide
  size := by decide
  count := by decide
  freeRow := by decide

theorem spacesInv_decSecond : SpacesInv decSecond where
  encN := by decide
  encP := by decide
  decN := by decide
  decP := by decide
  decRows := by decide
  ibuf := ⟨by decide, by decide⟩
  obuf := ⟨by decide, by decide⟩
  encBuf := ⟨by decide, by decide⟩
  decC := ⟨by decide, by decide⟩
  decY := ⟨by decide, by decide⟩
  decOut := ⟨by decide, by decide⟩

theorem statusInv_decSecond : StatusInv decSecond where
  code := by decide
  result := by decide

/-! For every statement with hypotheses, a state and operands that meet them; for one with several clauses, one for
each clause. -/

theorem witness_EncodeThenDecodeGivesBack : Instr.wellFormed (.decGet 65535) = true := by decide

theorem witness_DecodeThenEncodeGivesBack : decode 0x2400FFFF#32 = .ok (.decGet 65535) := by rfl

theorem witness_DecodeSelectsByMatchAndMask :
    0x01FFFF00#32 &&& 0xFF0000FF#32 = 0x01000000#32 ∧ 0x02000100#32 &&& 0xFF0000FF#32 = 0x02000000#32 ∧
      0x03FF0000#32 &&& 0xFF0000FF#32 = 0x03000000#32 ∧ 0x0400FF00#32 &&& 0xFF0000FF#32 = 0x04000000#32 ∧
      0x05FF0000#32 &&& 0xFF00FFFF#32 = 0x05000000#32 ∧ 0x10000000#32 &&& 0xFFFFFFFF#32 = 0x10000000#32 ∧
      0x1100FFFF#32 &&& 0xFFFF0000#32 = 0x11000000#32 ∧ 0x12000000#32 &&& 0xFFFFFFFF#32 = 0x12000000#32 ∧
      0x13000000#32 &&& 0xFFFFFFFF#32 = 0x13000000#32 ∧ 0x1400FFFF#32 &&& 0xFFFF0000#32 = 0x14000000#32 ∧
      0x15000000#32 &&& 0xFFFFFFFF#32 = 0x15000000#32 ∧ 0x20000000#32 &&& 0xFFFFFFFF#32 = 0x20000000#32 ∧
      0x21000000#32 &&& 0xFFFFFFFF#32 = 0x21000000#32 ∧ 0x22000000#32 &&& 0xFFFFFFFF#32 = 0x22000000#32 ∧
      0x23000000#32 &&& 0xFFFFFFFF#32 = 0x23000000#32 ∧ 0x2400FFFF#32 &&& 0xFFFF0000#32 = 0x24000000#32 ∧
      0x25000000#32 &&& 0xFFFFFFFF#32 = 0x25000000#32 ∧ 0x26000000#32 &&& 0xFFFFFFFF#32 = 0x26000000#32 := by
  decide +kernel

theorem witness_IllegalWordSetsStatusAndResultOnly :
    (State.reset.withCommand 0x01000001#32).pending = .access (.writeReg 0 0x01000001#32) :: [] ∧
      ∀ row ∈ commandPatterns, 0x01000001#32 &&& row.2 ≠ row.1 :=
  ⟨rfl, by simp [commandPatterns]⟩

theorem witness_StepRunsTheDecodedCommand :
    (State.reset.withCommand 0x0353CA00#32).pending = .access (.writeReg 0 0x0353CA00#32) :: [] ∧
      decode 0x0353CA00#32 = .ok (.ffMul 0x53#8 0xCA#8) := ⟨rfl, rfl⟩

theorem witness_IdleCoreHoldsItsState : encPair.pending = [] := by rfl

/-- The reads of registers 0 to 8 and of the buffer indices 27 and 28 (BUF_CAP is 28). -/
theorem witness_ReadsReturnAndChangeNothing :
    (∀ n ∈ [0, 1, 2, 3, 4, 5, 6, 7, 8], ({ State.reset with pending := [.access (.readReg n)] } : State).pending =
        .access (.readReg n) :: []) ∧
      (∀ n ∈ [27, 28], ({ State.reset with pending := [.access (.readIBuf n)] } : State).pending =
        .access (.readIBuf n) :: []) ∧
      (∀ n ∈ [27, 28], ({ State.reset with pending := [.access (.readOBuf n)] } : State).pending =
        .access (.readOBuf n) :: []) ∧ State.reset.bufCap = 28 := by decide

theorem witness_HostWritesReachArgIlenAndIBufOnly :
    (∀ n ∈ [1, 2, 3, 7, 8], ({ State.reset with pending := [.access (.writeReg n 5#32)] } : State).pending =
        .access (.writeReg n 5#32) :: [] ∧ n ≠ 0) ∧
      ∀ n ∈ [27, 28], ({ State.reset with pending := [.access (.writeIBuf n 5#8)] } : State).pending =
        .access (.writeIBuf n 5#8) :: [] := by decide

theorem witness_PacketCarryLineMovesOBufToIBuf :
    (encGenCoded [0x02#8, 0x03#8] encPair).pending = [] ∧
      (encGenCoded [0x02#8, 0x03#8] encPair).olen.toNat = 12 ∧
      (encGenCoded [0x02#8, 0x03#8] encPair).olen.toNat ≤ (encGenCoded [0x02#8, 0x03#8] encPair).bufCap := by decide

theorem witness_ResetGivesTheStatedValues :
    ({ decDone with pending := [.reset] } : State).pending = .reset :: [] := by rfl

theorem witness_FfAddAndFfSubAreExclusiveOr :
    (0x01000001#32).extractLsb' 24 8 = 0x01#8 ∧ (0x01000001#32).extractLsb' 0 8 ≠ 0#8 ∧
      (0x02000080#32).extractLsb' 24 8 = 0x02#8 ∧ (0x02000080#32).extractLsb' 0 8 ≠ 0#8 := by decide

theorem witness_FfDivIsTheQuotient : (0xFF#8 : Byte) ≠ 0#8 ∧ (0x01#8 : Byte) ≠ 0#8 := by decide

theorem witness_FfInvIsTheInverse :
    (0x01#8 : Byte) ≠ 0#8 ∧ (0x05000001#32).extractLsb' 24 8 = 0x05#8 ∧ (0x05008000#32).extractLsb' 0 16 ≠ 0#16 ∧
      (0x05000001#32).extractLsb' 0 16 ≠ 0#16 := by decide

/-- ARG = N 4, P 16, the maxima, and ARG = 0. -/
theorem witness_EncInitConstructsTheEncoder :
    SizesLegal { State.reset with arg := 0x00100004#32 } ∧ SizesLegal { State.reset with arg := 0x00010001#32 } ∧
      ¬ SizesLegal State.reset ∧ ¬ SizesLegal { State.reset with arg := 0x00110004#32 } := by
  unfold SizesLegal; decide

theorem witness_EncAddBuffersTheNormalisedPayload :
    EncInv encHalf ∧ encHalf.ilen.toNat ≤ encHalf.bufCap ∧ 0 < encHalf.enc.n.toNat ∧
      encHalf.enc.slotValid 0 = false := ⟨encInv_encHalf, by decide⟩

/-- One state for each clause; ILEN = 29 is one above BUF_CAP, idx = 2 is N. -/
theorem witness_EncAddFailsInOrder :
    State.reset.enc.n = 0#16 ∧
      (encHalf.enc.n ≠ 0#16 ∧ ({ encHalf with ilen := 29#32 } : State).bufCap < 29) ∧
      (encPair.enc.n ≠ 0#16 ∧ encPair.ilen.toNat ≤ encPair.bufCap ∧
        ∀ i < encPair.enc.n.toNat, encPair.enc.slotValid i = true) ∧
      (encHalf.enc.n ≠ 0#16 ∧ encHalf.ilen.toNat ≤ encHalf.bufCap ∧ 0 < encHalf.enc.n.toNat ∧
        encHalf.enc.slotValid 0 = false ∧ encHalf.enc.n.toNat ≤ 2) ∧
      (1 < encHalf.enc.n.toNat ∧ encHalf.enc.slotValid 1 = true) := by decide

theorem witness_EncCompleteTellsAFullGeneration :
    State.reset.enc.n = 0#16 ∧
      (encPair.enc.n ≠ 0#16 ∧ ∀ i < encPair.enc.n.toNat, encPair.enc.slotValid i = true) ∧
      (encHalf.enc.n ≠ 0#16 ∧ 0 < encHalf.enc.n.toNat ∧ encHalf.enc.slotValid 0 = false) := by decide

theorem witness_EncGenCodedEmitsALinearCombination :
    encHalf.enc.n ≠ 0#16 ∧ ∃ i < encHalf.enc.n.toNat, encHalf.enc.slotValid i = true :=
  ⟨by decide, 1, by decide, by decide⟩

theorem witness_EveryDrawVectorGivesItsPacket :
    encPair.enc.n ≠ 0#16 ∧ (∃ i < encPair.enc.n.toNat, encPair.enc.slotValid i = true) ∧
      [0x02#8, 0xFF#8].length = encPair.enc.n.toNat ∧ (∀ x ∈ [0x02#8, 0xFF#8], x ≠ 0#8) ∧
      ∃ t, t = encGenCoded [0x02#8, 0xFF#8] encPair :=
  ⟨by decide, ⟨0, by decide, by decide⟩, by decide, by decide, _, rfl⟩

theorem witness_EncGenUncodedEmitsTheSlot :
    1 < encHalf.enc.n.toNat ∧ encHalf.enc.slotValid 1 = true := by decide

theorem witness_EncProducersFailWithOlenZero :
    State.reset.enc.n = 0#16 ∧
      (encEmpty.enc.n ≠ 0#16 ∧ ∀ i < encEmpty.enc.n.toNat, encEmpty.enc.slotValid i = false) ∧
      (encHalf.enc.n ≠ 0#16 ∧ encHalf.enc.n.toNat ≤ 2) ∧
      (0 < encHalf.enc.n.toNat ∧ encHalf.enc.slotValid 0 = false) := by decide

theorem witness_EncNextStartsTheNextGeneration : State.reset.enc.n = 0#16 ∧ encHalf.enc.n ≠ 0#16 := by decide

theorem witness_OnlyThreeCommandsChangeTheEncoder :
    exec .encComplete encPair = .next (encComplete encPair) ∧ changesEncoder .encComplete = false := ⟨rfl, rfl⟩

theorem witness_OnlyFourCommandsChangeTheDecoder :
    (exec .decRank decSecond = .next (decRank decSecond) ∧ changesDecoder .decRank = false) ∧
      (exec .decProcess decDone = .next (decProcess decDone) ∧ (decProcess decDone).status ≠ 0x00#8) ∧
      (exec (.decGet 0) decDone = .next (decGet 0 decDone) ∧ decDone.dec.state ≠ .decodable) :=
  ⟨⟨rfl, rfl⟩, ⟨rfl, by decide⟩, rfl, by decide⟩

theorem witness_CommandsKeepTheHostsInputs :
    exec .encNext encPair = .next (encNext encPair) ∧ Instr.encNext ≠ .encGenCoded := ⟨rfl, by decide⟩

theorem witness_OnlyProducingCommandsWriteOutput :
    exec .encNext encPair = .next (encNext encPair) ∧ isProducing .encNext = false := ⟨rfl, rfl⟩

theorem witness_ErrFlagsAreSticky :
    (step decSecond = .next decSecond ∧ ∀ rest, decSecond.pending ≠ .reset :: rest) ∧
      (exec .encNext { encPair with errFfz := true } = .next (encNext { encPair with errFfz := true }) ∧
        Instr.encNext ≠ .decProcess ∧ ∀ k, Instr.encNext ≠ .decGet k) :=
  ⟨⟨rfl, fun _ h => by cases h⟩, rfl, by decide, fun _ h => by cases h⟩

theorem witness_FailingCommandsLeaveTheUnits :
    exec .decProcess decDone = .next (decProcess decDone) ∧ (decProcess decDone).status ≠ 0x00#8 ∧
      ((∀ k, Instr.decProcess ≠ .decGet k) ∨ decDone.dec.state ≠ .decodable) :=
  ⟨rfl, by decide, .inr (by decide)⟩

theorem witness_CommandsEndWithTheirCodes : exec (.encAdd 2) encHalf = .next (encAdd 2 encHalf) := rfl

theorem witness_EncAndDecCommandsCommuteOnUnits :
    isEncCommand .encNext = true ∧ isDecCommand .decInit = true ∧
      exec .encNext encPair = .next (encNext encPair) ∧
      exec .decInit (encNext encPair) = .next (decInit (encNext encPair)) ∧
      exec .decInit encPair = .next (decInit encPair) ∧
      exec .encNext (decInit encPair) = .next (encNext (decInit encPair)) := ⟨rfl, rfl, rfl, rfl, rfl, rfl⟩

theorem witness_DecInitConstructsTheDecoder :
    SizesLegal { State.reset with arg := 0x00020003#32 } ∧ ¬ SizesLegal { State.reset with arg := 0x00000004#32 } := by
  unfold SizesLegal; decide

/-- A decoder whose packet in IBUF carries another generation id, another generationSize, and one with no row left. -/
theorem witness_DecProcessRejectsInOrder :
    State.reset.dec.n = 0#16 ∧
      (decFirst.dec.n ≠ 0#16 ∧ ({ decFirst with ilen := 29#32 } : State).bufCap < 29) ∧
      (decDone.dec.n ≠ 0#16 ∧ decDone.ilen.toNat ≤ decDone.bufCap ∧ decDone.dec.state = .decoded) ∧
      (decFirst.dec.state ≠ .decoded ∧ ({ decFirst with ilen := 7#32 } : State).ilen.toNat < 8) ∧
      (8 ≤ decFirst.ilen.toNat ∧ decFirst.ilen.toNat ≤ decFirst.bufCap ∧
        packetGen decFirst.ibuf ≠ ({ decFirst.dec with gen := 1#32 } : DecUnit).gen) ∧
      (packetGen decFirst.ibuf = decFirst.dec.gen ∧
        packetSize decFirst.ibuf ≠ ({ decFirst.dec with n := 3#16 } : DecUnit).n) ∧
      (8 ≤ ({ decFirst with ilen := 11#32 } : State).ilen.toNat ∧
        ({ decFirst with ilen := 11#32 } : State).ilen.toNat ≠ 8 + decFirst.dec.n.toNat + decFirst.dec.p.toNat) ∧
      (packetSize decFirst.ibuf = decFirst.dec.n ∧ (packetCount decFirst.ibuf).toNat ≤ decFirst.dec.n.toNat ∧
        decFirst.ilen.toNat = 8 + decFirst.dec.n.toNat + decFirst.dec.p.toNat ∧
        ({ decFirst.dec with rows := 2 } : DecUnit).rows = decFirst.dec.n.toNat) := by decide

theorem witness_DecProcessStoresThePacket :
    DecInv decFirst ∧ PacketAccepted decFirst ∧
      rankOf decFirst.dec.n.toNat decFirst.matrixWithPacket < decFirst.dec.n.toNat :=
  ⟨decInv_decFirst, accepted_decFirst, by decide +kernel⟩

theorem witness_DecProcessDecodesAtFullRank :
    DecInv decSecond ∧ PacketAccepted decSecond ∧
      rankOf decSecond.dec.n.toNat decSecond.matrixWithPacket = decSecond.dec.n.toNat :=
  ⟨decInv_decSecond, accepted_decSecond, by decide +kernel⟩

theorem witness_RankIsTheRowSpaceDimension : MatShape 2 2 [[0x02#8, 0x03#8], [0x04#8, 0x06#8]] := by
  unfold MatShape; decide

theorem witness_InnovativeMeansNotACombination : DecInv decSecond ∧ PacketAccepted decSecond :=
  ⟨decInv_decSecond, accepted_decSecond⟩

theorem witness_DecodeNeverAbortsAtFullRank :
    MatShape 2 2 [[0x00#8, 0x03#8], [0x01#8, 0x00#8]] ∧ MatShape 2 1 [[0x07#8], [0x03#8]] ∧
      rankOf 2 [[0x00#8, 0x03#8], [0x01#8, 0x00#8]] = 2 := by unfold MatShape; decide +kernel

/-- The system and solution of 95_test_vectors.md D35. -/
theorem witness_DecodeComputesTheUniqueSolution :
    MatShape 2 2 [[0x02#8, 0x03#8], [0x00#8, 0x01#8]] ∧ MatShape 2 1 [[0x07#8], [0x03#8]] ∧
      rankOf 2 [[0x02#8, 0x03#8], [0x00#8, 0x01#8]] = 2 ∧ MatShape 2 1 [[0x01#8], [0x03#8]] ∧
      Solves 2 1 [[0x02#8, 0x03#8], [0x00#8, 0x01#8]] [[0x01#8], [0x03#8]] [[0x07#8], [0x03#8]] := by
  unfold MatShape Solves; decide +kernel

/-- The source packets 01 02 and 03 04 of D4 and D5. -/
theorem witness_DecoderRecoversTheSourcePackets :
    DecInv decSecond ∧ PacketAccepted decSecond ∧
      MatShape decSecond.dec.n.toNat decSecond.dec.p.toNat [[0x01#8, 0x02#8], [0x03#8, 0x04#8]] ∧
      FromSources decSecond [[0x01#8, 0x02#8], [0x03#8, 0x04#8]] ∧
      PacketFromSources decSecond [[0x01#8, 0x02#8], [0x03#8, 0x04#8]] :=
  ⟨decInv_decSecond, accepted_decSecond, by unfold MatShape; decide, by unfold FromSources; decide +kernel,
    by unfold PacketFromSources; decide +kernel⟩

theorem witness_UnderfilledGenerationHasNoFullRank :
    MatShape 2 2 [[0x00#8, 0x03#8], [0x00#8, 0x03#8]] ∧
      ∀ r < 2, matEntry [[0x00#8, 0x03#8], [0x00#8, 0x03#8]] r 0 = 0#8 := by unfold MatShape; decide

theorem witness_DecQueriesReturnRankAndState :
    (exec (.decGet 0) decDone = .next (decGet 0 decDone) ∧ Instr.decGet 0 ≠ .decInit ∧
        Instr.decGet 0 ≠ .decProcess ∧ Instr.decGet 0 ≠ .decNext) ∧
      (exec .decProcess decDone = .next (decProcess decDone) ∧ (decProcess decDone).status ≠ 0x00#8) ∧
      (exec .decNext decDone = .next (decNext decDone) ∧ (decNext decDone).status = 0x00#8) ∧
      (DecInv decDone ∧ decDone.dec.state = .decoded) ∧
      State.reset.dec.n = 0#16 ∧ decDone.dec.n ≠ 0#16 ∧ decDone.dec.rank ≤ decDone.dec.n.toNat :=
  ⟨⟨rfl, by decide, by decide, by decide⟩, ⟨rfl, by decide⟩, ⟨rfl, by decide⟩, ⟨decInv_decDone, by decide⟩,
    by decide, by decide, by decide⟩

theorem witness_DecGetReturnsADecodedPacket : decDone.dec.state = .decoded ∧ 1 < decDone.dec.n.toNat := by decide

theorem witness_DecGetFailsInOrder :
    State.reset.dec.n = 0#16 ∧ (decFirst.dec.n ≠ 0#16 ∧ decFirst.dec.state = .collecting) ∧
      (decDone.dec.n ≠ 0#16 ∧ decDone.dec.state = .decoded ∧ decDone.dec.n.toNat ≤ 2) := by decide

theorem witness_DecGetRunsTheLazyDecode :
    (decSingularHeld.dec.n ≠ 0#16 ∧ decSingularHeld.dec.state = .decodable ∧
        decSingularHeld.dec.n.toNat ≤ decSingularHeld.nMax ∧ decSingularHeld.dec.p.toNat ≤ decSingularHeld.pMax ∧
        (gaussJordan decSingularHeld.dec.n.toNat decSingularHeld.decMatrix decSingularHeld.decPayloads).aborted = true) ∧
      (decHeld.dec.n ≠ 0#16 ∧ decHeld.dec.state = .decodable ∧ decHeld.dec.n.toNat ≤ decHeld.nMax ∧
        decHeld.dec.p.toNat ≤ decHeld.pMax ∧
        (gaussJordan decHeld.dec.n.toNat decHeld.decMatrix decHeld.decPayloads).aborted = false) ∧
      (1 < decHeld.dec.n.toNat ∧ decHeld.dec.n.toNat ≤ 2) := by decide +kernel

theorem witness_DecNextStartsTheNextGeneration :
    (exec .decProcess decSecond = .next (decProcess decSecond) ∧ Instr.decProcess ≠ .decNext ∧
      Instr.decProcess ≠ .decInit) ∧ State.reset.dec.n = 0#16 ∧ decDone.dec.n ≠ 0#16 :=
  ⟨⟨rfl, by decide, by decide⟩, by decide, by decide⟩

theorem witness_DecodedDecoderRefusesPackets :
    decDone.dec.n ≠ 0#16 ∧ decDone.dec.state = .decoded ∧ decDone.ilen.toNat ≤ decDone.bufCap ∧
      ({ decDone with ilen := 29#32 } : State).bufCap < 29 := by decide

theorem witness_StepKeepsTheEncoderInvariant : EncInv encPair ∧ step encPair = .next encPair :=
  ⟨encInv_encPair, rfl⟩

theorem witness_StepKeepsTheDecoderInvariant : DecInv decSecond ∧ step decSecond = .next decSecond :=
  ⟨decInv_decSecond, rfl⟩

theorem witness_StepKeepsTheStatusInvariant : StatusInv decSecond ∧ step decSecond = .next decSecond :=
  ⟨statusInv_decSecond, rfl⟩

theorem witness_StepKeepsTheSpacesCanonical : SpacesInv decSecond ∧ step decSecond = .next decSecond :=
  ⟨spacesInv_decSecond, rfl⟩

end Sys2Proof.Tests
end

section

/-! ## Commands and steps: what each can do, said once

Every command answers one next state, `effect i s`, and `footprint` names the fields a command may write. A step is a
host access, a reset or a command, and `step_keeps` turns this into the induction step of an invariant. -/

namespace Sys2Proof.Machine

/-! ### The effect of a command -/

/-- The state after a command; `exec_eq_next_effect` ties it to `exec`. -/
def effect (i : Instr) (s : State) : State :=
  match i with
  | .ffAdd a b => ok (byteWord (gfAdd a b)) s
  | .ffSub a b => ok (byteWord (gfSub a b)) s
  | .ffMul a b => ok (byteWord (gfMul a b)) s
  | .ffDiv a b => if b = 0#8 then failZeroDivisor s else ok (byteWord (gfDiv a b)) s
  | .ffInv a => if a = 0#8 then failZeroDivisor s else ok (byteWord (gfInv a)) s
  | .encInit => encInit s
  | .encAdd idx => encAdd idx s
  | .encComplete => encComplete s
  | .encGenCoded => encGenCoded (s.nextDraws s.enc.n.toNat) s
  | .encGenUncoded idx => encGenUncoded idx s
  | .encNext => encNext s
  | .decInit => decInit s
  | .decProcess => decProcess s
  | .decCanDecode => decCanDecode s
  | .decRank => decRank s
  | .decGet idx => decGet idx s
  | .decNext => decNext s
  | .decState => decState s

/-- No command faults or is refused (60_exceptions.md R220). -/
theorem exec_eq_next_effect (i : Instr) (s : State) : exec i s = .next (effect i s) := by
  cases i <;> rfl

theorem exec_eq_next_iff (i : Instr) (s t : State) : exec i s = .next t ↔ effect i s = t := by
  rw [exec_eq_next_effect, Host.Outcome.next.injEq]

/-! ### Which fields a command may write -/

/-- ENC_GEN_CODED takes RAND draws (41_encoder.md R157). -/
def takesDraws : Instr → Bool
  | .encGenCoded => true
  | _ => false

/-- The commands that can run decode() (42_decoder.md R184, R196). -/
def runsDecode : Instr → Bool
  | .decProcess | .decGet _ => true
  | _ => false

/-- The state s with the fields command i may write taken from t. -/
def footprint (i : Instr) (s t : State) : State :=
  { s with
    status := t.status
    result := t.result
    olen := if isProducing i then t.olen else s.olen
    obuf := if isProducing i then t.obuf else s.obuf
    errFfz := hasZeroDivisor i || s.errFfz
    errSing := if runsDecode i then t.errSing else s.errSing
    enc := if changesEncoder i then t.enc else s.enc
    dec := if changesDecoder i then t.dec else s.dec
    drawn := if takesDraws i then t.drawn else s.drawn }

/-- A command that ends with ok(v) on the state it began in, and divides by no zero, stays within its footprint. -/
theorem footprint_ok {i : Instr} (h : hasZeroDivisor i = false) (v : Word) (s : State) :
    footprint i s (ok v s) = ok v s := by
  simp only [footprint, h, ok_olen, ok_obuf, ok_errSing, ok_enc, ok_dec, ok_drawn, ite_self, Bool.false_or]
  rfl

theorem footprint_failZeroDivisor {i : Instr} (h : hasZeroDivisor i = true) (s : State) :
    footprint i s (failZeroDivisor s) = failZeroDivisor s := by
  simp only [footprint, h, failZeroDivisor_olen, failZeroDivisor_obuf, failZeroDivisor_errSing, failZeroDivisor_enc,
    failZeroDivisor_dec, failZeroDivisor_drawn, ite_self, Bool.true_or]
  rfl

theorem ffDiv_footprint (a b : Byte) (s : State) :
    footprint (.ffDiv a b) s (effect (.ffDiv a b) s) = effect (.ffDiv a b) s := by
  dsimp only [effect]
  split
  case isTrue hb => exact footprint_failZeroDivisor (i := .ffDiv a b) (beq_iff_eq.2 hb) s
  case isFalse hb => exact footprint_ok (i := .ffDiv a b) (beq_false_of_ne hb) _ s

theorem ffInv_footprint (a : Byte) (s : State) :
    footprint (.ffInv a) s (effect (.ffInv a) s) = effect (.ffInv a) s := by
  dsimp only [effect]
  split
  case isTrue ha => exact footprint_failZeroDivisor (i := .ffInv a) (beq_iff_eq.2 ha) s
  case isFalse ha => exact footprint_ok (i := .ffInv a) (beq_false_of_ne ha) _ s

theorem encInit_footprint (s : State) : footprint .encInit s (encInit s) = encInit s := by
  unfold encInit; split <;> rfl

theorem encAdd_footprint (idx : Nat) (s : State) : footprint (.encAdd idx) s (encAdd idx s) = encAdd idx s := by
  unfold encAdd; split_ifs <;> rfl

theorem encComplete_footprint (s : State) : footprint .encComplete s (encComplete s) = encComplete s := by
  unfold encComplete; split <;> rfl

theorem encGenCoded_footprint (r : List Byte) (s : State) :
    footprint .encGenCoded s (encGenCoded r s) = encGenCoded r s := by
  unfold encGenCoded; split_ifs <;> rfl

theorem encGenUncoded_footprint (idx : Nat) (s : State) :
    footprint (.encGenUncoded idx) s (encGenUncoded idx s) = encGenUncoded idx s := by
  unfold encGenUncoded; split_ifs <;> rfl

theorem encNext_footprint (s : State) : footprint .encNext s (encNext s) = encNext s := by
  unfold encNext; split <;> rfl

theorem decInit_footprint (s : State) : footprint .decInit s (decInit s) = decInit s := by
  unfold decInit; split <;> rfl

theorem decProcess_footprint (s : State) : footprint .decProcess s (decProcess s) = decProcess s := by
  unfold decProcess
  split_ifs
  case neg => rw [acceptPacket_frame]; rfl
  all_goals rfl

theorem decCanDecode_footprint (s : State) : footprint .decCanDecode s (decCanDecode s) = decCanDecode s := by
  unfold decCanDecode; split <;> rfl

theorem decRank_footprint (s : State) : footprint .decRank s (decRank s) = decRank s := by
  unfold decRank; split <;> rfl

theorem decGet_footprint (idx : Nat) (s : State) : footprint (.decGet idx) s (decGet idx s) = decGet idx s := by
  unfold decGet decFetch
  rw [lazyDecode_frame]
  split_ifs <;> rfl

theorem decNext_footprint (s : State) : footprint .decNext s (decNext s) = decNext s := by
  unfold decNext; split <;> rfl

theorem decState_footprint (s : State) : footprint .decState s (decState s) = decState s := by
  unfold decState; split <;> rfl

/-- A command writes the fields of its footprint and no other. -/
theorem effect_footprint (i : Instr) (s : State) : footprint i s (effect i s) = effect i s := by
  cases i with
  | ffAdd | ffSub | ffMul => rfl
  | ffDiv a b => exact ffDiv_footprint a b s
  | ffInv a => exact ffInv_footprint a s
  | encInit => exact encInit_footprint s
  | encAdd idx => exact encAdd_footprint idx s
  | encComplete => exact encComplete_footprint s
  | encGenCoded => exact encGenCoded_footprint _ s
  | encGenUncoded idx => exact encGenUncoded_footprint idx s
  | encNext => exact encNext_footprint s
  | decInit => exact decInit_footprint s
  | decProcess => exact decProcess_footprint s
  | decCanDecode => exact decCanDecode_footprint s
  | decRank => exact decRank_footprint s
  | decGet idx => exact decGet_footprint idx s
  | decNext => exact decNext_footprint s
  | decState => exact decState_footprint s

/-! ### What commands leave unchanged -/

theorem exec_footprint {i : Instr} {s t : State} (h : exec i s = .next t) : footprint i s t = t := by
  rw [exec_eq_next_iff] at h
  rw [← h, effect_footprint]

theorem exec_cap {i : Instr} {s t : State} (h : exec i s = .next t) : t.cap = s.cap :=
  (congrArg State.cap (exec_footprint h)).symm

/-- R162 as a frame: the other commands leave the ENC unit alone. -/
theorem exec_enc {i : Instr} {s t : State} (h : exec i s = .next t) (hi : changesEncoder i = false) :
    t.enc = s.enc := by
  have hf := congrArg State.enc (exec_footprint h)
  simpa [footprint, hi] using hf.symm

/-- R200 as a frame: the other commands leave the DEC unit alone. -/
theorem exec_dec {i : Instr} {s t : State} (h : exec i s = .next t) (hi : changesDecoder i = false) :
    t.dec = s.dec := by
  have hf := congrArg State.dec (exec_footprint h)
  simpa [footprint, hi] using hf.symm

theorem exec_output {i : Instr} {s t : State} (h : exec i s = .next t) (hi : isProducing i = false) :
    t.olen = s.olen ∧ t.obuf = s.obuf := by
  have holen := congrArg State.olen (exec_footprint h)
  have hobuf := congrArg State.obuf (exec_footprint h)
  simp only [footprint, hi] at holen hobuf
  exact ⟨holen.symm, hobuf.symm⟩

theorem exec_drawn {i : Instr} {s t : State} (h : exec i s = .next t) (hi : takesDraws i = false) :
    t.drawn = s.drawn := by
  have hf := congrArg State.drawn (exec_footprint h)
  simpa [footprint, hi] using hf.symm

theorem exec_errSing {i : Instr} {s t : State} (h : exec i s = .next t) (hi : runsDecode i = false) :
    t.errSing = s.errSing := by
  have hf := congrArg State.errSing (exec_footprint h)
  simpa [footprint, hi] using hf.symm

theorem exec_errFfz {i : Instr} {s t : State} (h : exec i s = .next t) :
    t.errFfz = (s.errFfz || hasZeroDivisor i) := by
  rw [Bool.or_comm]
  exact (congrArg State.errFfz (exec_footprint h)).symm

/-- Settles O31: CAP, ARG, ILEN, IBUF and the model's own fields are outside every command's footprint. -/
theorem commandsKeepTheHostsInputs : Obligations.CommandsKeepTheHostsInputs := by
  intro i s t h
  have hf := exec_footprint h
  refine ⟨(congrArg State.arg hf).symm, (congrArg State.ilen hf).symm, exec_cap h, (congrArg State.ibuf hf).symm,
    (congrArg State.pending hf).symm, (congrArg State.reply hf).symm, (congrArg State.resets hf).symm, fun hi => ?_⟩
  apply exec_drawn h
  cases i with
  | encGenCoded => exact absurd rfl hi
  | _ => rfl

/-- Settles O32: OLEN and OBUF are in the footprint of the producing commands only. -/
theorem onlyProducingCommandsWriteOutput : Obligations.OnlyProducingCommandsWriteOutput :=
  fun _ _ _ h hi => exec_output h hi

/-! ### How commands end -/

/-- R222, R223: STATUS after a command is 0x00 or one of the command's own codes. -/
theorem effect_status_mem (i : Instr) (s : State) : (effect i s).status ∈ 0x00#8 :: failureCodes i := by
  cases i with
  | ffAdd | ffSub | ffMul => exact List.mem_cons_self
  | ffDiv a b => dsimp only [effect]; split <;> simp [failureCodes]
  | ffInv a => dsimp only [effect]; split <;> simp [failureCodes]
  | encInit => dsimp only [effect, encInit]; split <;> simp [failureCodes]
  | encAdd idx => dsimp only [effect, encAdd]; split_ifs <;> simp [failureCodes]
  | encComplete => dsimp only [effect, encComplete]; split <;> simp [failureCodes]
  | encGenCoded => dsimp only [effect, encGenCoded]; split_ifs <;> simp [failureCodes]
  | encGenUncoded idx => dsimp only [effect, encGenUncoded]; split_ifs <;> simp [failureCodes]
  | encNext => dsimp only [effect, encNext]; split <;> simp [failureCodes]
  | decInit => dsimp only [effect, decInit]; split <;> simp [failureCodes]
  | decProcess => dsimp only [effect, decProcess]; split_ifs <;> simp [failureCodes]
  | decCanDecode => dsimp only [effect, decCanDecode]; split <;> simp [failureCodes]
  | decRank => dsimp only [effect, decRank]; split <;> simp [failureCodes]
  | decGet idx => dsimp only [effect, decGet, decFetch]; split_ifs <;> simp [failureCodes]
  | decNext => dsimp only [effect, decNext]; split <;> simp [failureCodes]
  | decState => dsimp only [effect, decState]; split <;> simp [failureCodes]

/-- R133, R134, R225: FF_ZERO is the status of exactly the two divisions by zero. -/
theorem effect_status_ffZero (i : Instr) (s : State) :
    (effect i s).status = 0x10#8 ↔ hasZeroDivisor i = true := by
  have hmem := effect_status_mem i s
  cases i with
  | ffDiv a b => by_cases hb : b = 0#8 <;> simp [effect, hasZeroDivisor, hb]
  | ffInv a => by_cases ha : a = 0#8 <;> simp [effect, hasZeroDivisor, ha]
  | _ =>
    refine ⟨fun h => ?_, fun h => absurd h Bool.false_ne_true⟩
    rw [h] at hmem
    exact absurd hmem (by simp [failureCodes])

/-! ### Host events and steps -/

theorem step_of_idle {s : State} (h : s.pending = []) : step s = .next s := by
  simp only [step, h]

theorem step_of_event {s : State} {e : HostEvent} {rest : List HostEvent} (h : s.pending = e :: rest) :
    step s = takeEvent e { s with pending := rest } := by
  simp only [step, h]

/-- A register write other than of CMD, by cases on the two storage registers (10_state.md R23). -/
theorem storeReg_eq (s : State) (n : Nat) (v : Word) :
    s.storeReg n v = { s with arg := if n = 1 then v else s.arg, ilen := if n = 2 then v else s.ilen } := by
  match n with
  | 0 | 1 | 2 | _ + 3 => rfl

theorem writeReg_of_ne_zero {n : Nat} (hn : n ≠ 0) (v : Word) (s : State) :
    writeReg n v s = .next (s.storeReg n v) := by
  cases n with
  | zero => exact absurd rfl hn
  | succ k => rfl

/-- What a host register reads as (10_state.md R22, R23), by its number. -/
theorem readReg_eq (s : State) (n : Nat) :
    s.readReg n =
      if n = 1 then s.arg else if n = 2 then s.ilen else if n = 3 then BitVec.ofNat 32 s.status.toNat
        else if n = 4 then s.result else if n = 5 then s.olen
        else if n = 6 then (if s.errFfz then 1#32 else 0#32) + (if s.errSing then 2#32 else 0#32)
        else if n = 7 then s.cap else 0#32 := by
  match n with
  | 6 => cases hf : s.errFfz <;> cases hs : s.errSing <;> simp [State.readReg, State.errWord, hf, hs]
  | 3 => exact (BitVec.ofNat_toNat 32 s.status).symm
  | 0 | 1 | 2 | 4 | 5 | 7 | _ + 8 => rfl

/-- An IBUF write reaches the one byte it names, and only below BUF_CAP (10_state.md R23). -/
theorem storeIBuf_eq (s : State) (i : Nat) (b : Byte) :
    s.storeIBuf i b = { s with ibuf := if i < s.bufCap then s.ibuf.write i b else s.ibuf } := by
  unfold State.storeIBuf; split <;> rfl

theorem runCommand_of_decode_ok {v : Word} {i : Instr} (h : decode v = .ok i) (s : State) :
    runCommand v s = exec i s := by
  simp only [runCommand, h]

/-- Settles O7: the head of `pending` is taken, and `runCommand` runs the decoded command. -/
theorem stepRunsTheDecodedCommand : Obligations.StepRunsTheDecodedCommand := by
  intro s w rest i hp hd
  rw [step_of_event hp]
  exact runCommand_of_decode_ok hd _

/-- Settles O9: a read writes `reply` only; the register values are those of `readReg_eq`. -/
theorem readsReturnAndChangeNothing : Obligations.ReadsReturnAndChangeNothing := by
  intro s rest n
  refine ⟨fun hp => ?_, fun hp => ?_, fun hp => ?_⟩
  · rw [step_of_event hp, takeEvent, performAccess, readReg_eq]
  · rw [step_of_event hp]; rfl
  · rw [step_of_event hp]; rfl

/-- Settles O10: by the equations of the two host stores and the law of a read after a write. -/
theorem hostWritesReachArgIlenAndIBufOnly : Obligations.HostWritesReachArgIlenAndIBufOnly := by
  intro s rest n v b
  refine ⟨fun hp hn => ?_, fun hp => ?_⟩
  · rw [step_of_event hp, takeEvent, performAccess, writeReg_of_ne_zero hn, storeReg_eq]
  · rw [step_of_event hp, takeEvent, performAccess, storeIBuf_eq]
    refine ⟨_, rfl, rfl, fun a => ?_⟩
    change (if n < s.bufCap then s.ibuf.write n b else s.ibuf).read a = if a = n ∧ n < s.bufCap then b else s.ibuf.read a
    by_cases hn : n < s.bufCap
    · simp only [hn, if_true, and_true, Memory.read_write]
    · simp only [hn, if_false, and_false]

/-- The induction step of an invariant: a predicate that the host's writes of ARG, ILEN and IBUF, an illegal word, a
reset and every command keep is kept by every step. -/
theorem step_keeps {Inv : State → Prop} {s t : State}
    (hregs : ∀ (s : State) (arg ilen : Word) (pending : List HostEvent) (reply : HostReply), Inv s →
      Inv { s with arg := arg, ilen := ilen, pending := pending, reply := reply })
    (hibuf : ∀ (s : State) (i : Nat) (b : Byte), Inv s → i < s.bufCap → Inv { s with ibuf := s.ibuf.write i b })
    (hillegal : ∀ s : State, Inv s → Inv (illegalWord s))
    (hreset : ∀ rest : List HostEvent, s.pending = .reset :: rest → Inv (resetCore { s with pending := rest }))
    (hexec : ∀ (i : Instr) (s : State), Inv s → Inv (effect i s))
    (hs : Inv s) (ht : step s = .next t) : Inv t := by
  match hp : s.pending with
  | [] =>
    rw [step_of_idle hp, Host.Outcome.next.injEq] at ht
    exact ht ▸ hs
  | e :: rest =>
    rw [step_of_event hp] at ht
    have hrest (reply : HostReply) : Inv { s with pending := rest, reply := reply } := hregs s s.arg s.ilen rest reply hs
    match e with
    | .reset =>
      rw [takeEvent, Host.Outcome.next.injEq] at ht
      exact ht ▸ hreset rest hp
    | .access (.readReg _) | .access (.readIBuf _) | .access (.readOBuf _) =>
      rw [takeEvent, performAccess, Host.Outcome.next.injEq] at ht
      exact ht ▸ hrest _
    | .access (.writeIBuf i b) =>
      rw [takeEvent, performAccess, Host.Outcome.next.injEq, State.storeIBuf] at ht
      split at ht
      case isTrue hi => exact ht ▸ hibuf _ i b (hrest .nothing) hi
      case isFalse => exact ht ▸ hrest .nothing
    | .access (.writeReg (n + 1) v) =>
      rw [takeEvent, performAccess, writeReg_of_ne_zero n.succ_ne_zero, Host.Outcome.next.injEq, storeReg_eq] at ht
      exact ht ▸ hregs _ _ _ rest .nothing (hrest .nothing)
    | .access (.writeReg 0 v) =>
      rw [takeEvent, performAccess, writeReg, runCommand] at ht
      split at ht
      case h_1 i _ =>
        rw [exec_eq_next_iff] at ht
        exact ht ▸ hexec i _ (hrest .nothing)
      case h_2 =>
        rw [Host.Outcome.next.injEq] at ht
        exact ht ▸ hillegal _ (hrest .nothing)

/-! ### The flags of ERR -/

/-- decode() does not clear SING (42_decoder.md R192, R193). -/
theorem decodeRun_errSing {s : State} (h : s.errSing = true) : (decodeRun s).errSing = true := by
  obtain ⟨-, hrun⟩ | ⟨-, hrun⟩ := decodeRun_cases s
  · rw [hrun, setSing_errSing]
  · rw [hrun, finishDecode_errSing, storeElimination_errSing, h]

theorem acceptPacket_errSing {s : State} (h : s.errSing = true) : (acceptPacket s).errSing = true := by
  unfold acceptPacket decodeAtFullRank
  split
  · exact decodeRun_errSing h
  · exact h

theorem lazyDecode_errSing {s : State} (h : s.errSing = true) : (lazyDecode s).errSing = true := by
  unfold lazyDecode
  split
  · exact decodeRun_errSing h
  · exact h

/-- R29: no command clears SING. -/
theorem effect_errSing {i : Instr} {s : State} (h : s.errSing = true) : (effect i s).errSing = true := by
  cases i with
  | decProcess =>
    dsimp only [effect, decProcess]
    split_ifs
    case neg => exact acceptPacket_errSing h
    all_goals exact h
  | decGet idx =>
    have hlazy := lazyDecode_errSing h
    dsimp only [effect, decGet, decFetch]
    split_ifs
    case pos => exact h
    all_goals exact hlazy
  | _ => rw [exec_errSing (exec_eq_next_effect _ s) rfl, h]

/-- R29: no step but a reset clears a flag of ERR. -/
theorem step_errFlags {s t : State} (ht : step s = .next t) (hreset : ∀ rest, s.pending ≠ .reset :: rest) :
    (s.errFfz = true → t.errFfz = true) ∧ (s.errSing = true → t.errSing = true) := by
  refine step_keeps (Inv := fun u => (s.errFfz = true → u.errFfz = true) ∧ (s.errSing = true → u.errSing = true))
    (fun _ _ _ _ _ h => h) (fun _ _ _ h _ => h) (fun _ h => h) (fun rest hp => absurd hp (hreset rest))
    (fun i u h => ?_) ⟨id, id⟩ ht
  obtain ⟨hffz, hsing⟩ := h
  refine ⟨fun hs => ?_, fun hs => effect_errSing (hsing hs)⟩
  rw [exec_errFfz (exec_eq_next_effect i u), hffz hs, Bool.true_or]

/-- Settles O33: FFZ and SING by the footprint, FF_ZERO by each command's list of codes. -/
theorem errFlagsAreSticky : Obligations.ErrFlagsAreSticky := by
  refine ⟨fun s t ht hreset => step_errFlags ht hreset, fun i s t ht => ⟨exec_errFfz ht, ?_, fun hi => ?_⟩⟩
  · rw [exec_eq_next_iff] at ht
    rw [← ht]
    exact effect_status_ffZero i s
  · apply exec_errSing ht
    obtain ⟨hprocess, hget⟩ := hi
    cases i with
    | decProcess => exact absurd rfl hprocess
    | decGet k => exact absurd rfl (hget k)
    | _ => rfl

/-! ### Reset and the encoder invariant -/

theorem slotValid_of_replicate {e : EncUnit} {k : Nat} (h : e.valid = List.replicate k false) (i : Nat) :
    e.slotValid i = false := by
  simp [EncUnit.slotValid, h]

theorem afterReset_hasResetValues (cap : Word) (epoch : Nat) : HasResetValues cap (State.afterReset cap epoch) :=
  ⟨rfl, rfl, rfl, rfl, rfl, rfl, rfl, rfl, ⟨rfl, rfl, rfl, slotValid_of_replicate rfl⟩, rfl, rfl, rfl, rfl, rfl, rfl⟩

/-- Settles O12: both states are `State.afterReset` but for the model's own fields. -/
theorem resetGivesTheStatedValues : Obligations.ResetGivesTheStatedValues := by
  refine ⟨afterReset_hasResetValues _ _, fun s rest hp => ⟨_, step_of_event hp, ?_⟩⟩
  exact afterReset_hasResetValues s.cap (s.resets + 1)

/-- The encoder invariant is about the ENC unit and CAP only. -/
theorem EncInv.congr {s t : State} (h : EncInv s) (henc : t.enc = s.enc) (hcap : t.cap = s.cap) : EncInv t := by
  obtain ⟨h1, h2, h3, h4, h5, h6⟩ := h
  rw [← henc] at h1 h2 h3 h4 h5 h6
  rw [State.nMax, ← hcap] at h3 h5 h6
  rw [State.pMax, ← hcap] at h4
  exact ⟨h1, h2, h3, h4, h5, h6⟩

/-- An encoder all of whose slots are empty meets the invariant when its sizes do. -/
theorem EncInv.of_emptySlots {s : State} (hvalid : s.enc.valid = List.replicate s.nMax false)
    (hunconfigured : s.enc.n = 0#16 ↔ s.enc.p = 0#16) (hgen : s.enc.n = 0#16 → s.enc.gen = 0#32)
    (hn : s.enc.n.toNat ≤ s.nMax) (hp : s.enc.p.toNat ≤ s.pMax) : EncInv s where
  unconfigured := hunconfigured
  genZero := hgen
  nBound := hn
  pBound := hp
  slots := by rw [hvalid, List.length_replicate]
  noSlotAbove := fun i _ _ => slotValid_of_replicate hvalid i

theorem encInv_afterReset (cap : Word) (epoch : Nat) : EncInv (State.afterReset cap epoch) :=
  .of_emptySlots rfl ⟨fun _ => rfl, fun _ => rfl⟩ (fun _ => rfl) (Nat.zero_le _) (Nat.zero_le _)

theorem encInv_resetCore (s : State) : EncInv (resetCore s) :=
  (encInv_afterReset s.cap (s.resets + 1)).congr rfl rfl

/-- The sizes in ARG that an INIT command accepts (41_encoder.md R151). -/
theorem argLegal_iff (s : State) :
    s.argLegal = true ↔ s.argN ≠ 0#16 ∧ s.argN.toNat ≤ s.nMax ∧ s.argP ≠ 0#16 ∧ s.argP.toNat ≤ s.pMax := by
  simp only [State.argLegal, Bool.and_eq_true, decide_eq_true_eq, and_assoc]

theorem encInv_encInit {s : State} (h : EncInv s) : EncInv (encInit s) := by
  unfold encInit
  split
  case isTrue hlegal =>
    obtain ⟨hn0, hn, hp0, hp⟩ := (argLegal_iff s).1 hlegal
    exact .of_emptySlots rfl (iff_of_false hn0 hp0) (fun _ => rfl) hn hp
  case isFalse => exact h.congr rfl rfl

theorem encInv_encNext {s : State} (h : EncInv s) : EncInv (encNext s) := by
  unfold encNext
  split
  case isTrue => exact h.congr rfl rfl
  case isFalse hn => exact .of_emptySlots rfl h.unconfigured (fun h0 => absurd h0 hn) h.nBound h.pBound

/-- Marking a slot below N leaves the slots from N on empty. -/
theorem slotValid_set_of_lt {e e' : EncUnit} {idx i : Nat} (hvalid : e'.valid = e.valid.set idx true) (hi : idx < i) :
    e'.slotValid i = e.slotValid i := by
  rw [EncUnit.slotValid, EncUnit.slotValid, hvalid, List.getD_eq_getElem?_getD, List.getD_eq_getElem?_getD,
    List.getElem?_set_ne hi.ne]

theorem encInv_encAdd {s : State} (idx : Nat) (h : EncInv s) : EncInv (encAdd idx s) := by
  unfold encAdd
  split_ifs with _ _ _ hidx
  case neg =>
    exact
      { unconfigured := h.unconfigured
        genZero := h.genZero
        nBound := h.nBound
        pBound := h.pBound
        slots := (List.length_set ..).trans h.slots
        noSlotAbove := fun i hi hn =>
          (slotValid_set_of_lt rfl (Nat.lt_of_lt_of_le (Nat.lt_of_not_le hidx) hn)).trans (h.noSlotAbove i hi hn) }
  all_goals exact h.congr rfl rfl

/-- Every command keeps the encoder invariant; all but three leave the ENC unit alone. -/
theorem encInv_effect (i : Instr) {s : State} (h : EncInv s) : EncInv (effect i s) := by
  cases i with
  | encInit => exact encInv_encInit h
  | encAdd idx => exact encInv_encAdd idx h
  | encNext => exact encInv_encNext h
  | _ => exact h.congr (exec_enc (exec_eq_next_effect _ s) rfl) (exec_cap (exec_eq_next_effect _ s))

/-- Settles O54: only reset, ENC_INIT, ENC_ADD and ENC_NEXT touch the ENC unit, and each keeps the invariant. -/
theorem stepKeepsTheEncoderInvariant : Obligations.StepKeepsTheEncoderInvariant := fun _ _ hs ht =>
  step_keeps (Inv := EncInv) (fun _ _ _ _ _ h => h.congr rfl rfl) (fun _ _ _ h _ => h.congr rfl rfl)
    (fun _ h => h.congr rfl rfl) (fun _ _ => encInv_resetCore _) (fun i _ h => encInv_effect i h) hs ht

end Sys2Proof.Machine
end

section

/-! ## The field behind the tables (40_finite_field.md R120 to R129)

EXP lists the powers of the generator, so a product by `expAt i` is `xtime` applied i times; `xtime` is additive, and
that gives the distributive law. The other laws are arithmetic of logarithms modulo 255. -/

namespace Sys2Proof.Machine

/-! ### The tables -/

/-- R122: each entry of EXP is the one before it times x. -/
theorem expAt_succ : ∀ i < 255, expAt (i + 1) = xtime (expAt i) := by decide +kernel

theorem expAt_ne_zero : ∀ i < 256, expAt i ≠ 0#8 := by decide +kernel

/-- R122: EXP undoes LOG. -/
theorem expAt_logAt : ∀ a : Byte, a ≠ 0#8 → expAt (logAt a) = a := by decide +kernel

theorem logAt_lt : ∀ a : Byte, a ≠ 0#8 → logAt a < 255 := by decide +kernel

/-- R122: LOG undoes EXP. -/
theorem logAt_expAt : ∀ i < 255, logAt (expAt i) = i := by decide +kernel

/-- A byte is the sum of the powers x^k over its bits k. -/
theorem xorSum_bits : ∀ b : Byte, xorSum 8 (fun k => if b.getLsbD k then expAt k else 0#8) = b := by decide +kernel

theorem polyReduce_zero : (polyReduce 0#16 7).extractLsb' 0 8 = 0#8 := by decide

/-- A byte times x^k, k below 8, reduces to xtime applied k times. -/
theorem polyReduce_shift : ∀ k < 8, ∀ a : Byte,
    (polyReduce (a.zeroExtend 16 <<< k) 7).extractLsb' 0 8 = xtime^[k] a := by decide +kernel

/-! ### Sums -/

theorem xorSum_congr {n : Nat} {f g : Nat → Byte} (h : ∀ k < n, f k = g k) : xorSum n f = xorSum n g := by
  induction n with
  | zero => rfl
  | succ n ih => rw [xorSum, xorSum, ih fun k hk => h k (Nat.lt_succ_of_lt hk), h n n.lt_succ_self]

@[simp] theorem xorSum_zero (n : Nat) : xorSum n (fun _ => 0#8) = 0#8 := by
  induction n with
  | zero => rfl
  | succ n ih => rw [xorSum, ih, BitVec.xor_self]

theorem xorSum_eq_zero {n : Nat} {f : Nat → Byte} (h : ∀ k < n, f k = 0#8) : xorSum n f = 0#8 :=
  (xorSum_congr h).trans (xorSum_zero n)

theorem xor_xor_xor_comm {w : Nat} (a b c d : BitVec w) : a ^^^ b ^^^ (c ^^^ d) = a ^^^ c ^^^ (b ^^^ d) := by
  ac_rfl

theorem xorSum_xor (n : Nat) (f g : Nat → Byte) : xorSum n (fun k => f k ^^^ g k) = xorSum n f ^^^ xorSum n g := by
  induction n with
  | zero => exact BitVec.xor_self.symm
  | succ n ih => simp only [xorSum, ih, xor_xor_xor_comm]

/-- A sum with one term that is not 0. -/
theorem xorSum_eq_single {n r : Nat} {f : Nat → Byte} (hr : r < n) (h : ∀ k < n, k ≠ r → f k = 0#8) :
    xorSum n f = f r := by
  induction n with
  | zero => exact absurd hr r.not_lt_zero
  | succ n ih =>
    rw [xorSum]
    by_cases hn : r = n
    · rw [hn, xorSum_eq_zero fun k hk => h k (Nat.lt_succ_of_lt hk) (hn ▸ hk.ne), BitVec.zero_xor]
    · rw [ih (by omega) fun k hk => h k (Nat.lt_succ_of_lt hk), h n n.lt_succ_self (Ne.symm hn), BitVec.xor_zero]

/-! ### The product -/

theorem xtime_xor (a b : Byte) : xtime (a ^^^ b) = xtime a ^^^ xtime b := by
  unfold xtime
  rw [BitVec.getLsbD_xor, BitVec.shiftLeft_xor_distrib]
  cases a.getLsbD 7 <;> cases b.getLsbD 7
  case false.false => rfl
  case true.true => simp [xor_xor_xor_comm _ 0x1D#8]
  case false.true => exact BitVec.xor_assoc _ _ _
  case true.false => simp only [Bool.xor_false, if_true, Bool.false_eq_true, if_false]; ac_rfl

theorem xtime_zero : xtime 0#8 = 0#8 := rfl

theorem xtime_iterate_xor (i : Nat) (a b : Byte) : xtime^[i] (a ^^^ b) = xtime^[i] a ^^^ xtime^[i] b := by
  induction i generalizing a b with
  | zero => rfl
  | succ i ih => rw [Function.iterate_succ_apply, xtime_xor, ih, Function.iterate_succ_apply, Function.iterate_succ_apply]

theorem xtime_iterate_zero (i : Nat) : xtime^[i] 0#8 = 0#8 := Function.iterate_fixed xtime_zero i

/-- EXP has period 255 under xtime. -/
theorem xtime_expAt_mod (k : Nat) : xtime (expAt (k % 255)) = expAt ((k + 1) % 255) := by
  rw [← expAt_succ _ (Nat.mod_lt k (by omega))]
  by_cases h : k % 255 = 254
  · rw [h, show (k + 1) % 255 = 0 by omega]; rfl
  · rw [show (k + 1) % 255 = k % 255 + 1 by omega]

theorem xtime_iterate_expAt (i j : Nat) : xtime^[i] (expAt (j % 255)) = expAt ((i + j) % 255) := by
  induction i with
  | zero => rw [Nat.zero_add]; rfl
  | succ i ih => rw [Function.iterate_succ_apply', ih, xtime_expAt_mod, Nat.add_right_comm]

@[simp] theorem gfMul_zero (a : Byte) : gfMul a 0#8 = 0#8 := if_pos (.inr rfl)

@[simp] theorem zero_gfMul (a : Byte) : gfMul 0#8 a = 0#8 := if_pos (.inl rfl)

theorem gfMul_of_ne_zero {a b : Byte} (ha : a ≠ 0#8) (hb : b ≠ 0#8) :
    gfMul a b = expAt ((logAt a + logAt b) % 255) :=
  if_neg (not_or.2 ⟨ha, hb⟩)

/-- A product by a nonzero element is xtime, as often as its logarithm says. -/
theorem gfMul_eq_xtime_iterate {a : Byte} (ha : a ≠ 0#8) (b : Byte) : gfMul a b = xtime^[logAt a] b := by
  by_cases hb : b = 0#8
  · rw [hb, gfMul_zero, xtime_iterate_zero]
  · rw [gfMul_of_ne_zero ha hb, ← xtime_iterate_expAt, Nat.mod_eq_of_lt (logAt_lt b hb), expAt_logAt b hb]

theorem gfMul_comm (a b : Byte) : gfMul a b = gfMul b a := by
  simp only [gfMul, or_comm, Nat.add_comm]

theorem gfMul_xor (a b c : Byte) : gfMul a (b ^^^ c) = gfMul a b ^^^ gfMul a c := by
  by_cases ha : a = 0#8
  · simp only [ha, zero_gfMul, BitVec.xor_self]
  · simp only [gfMul_eq_xtime_iterate ha, xtime_iterate_xor]

theorem xor_gfMul (a b c : Byte) : gfMul (a ^^^ b) c = gfMul a c ^^^ gfMul b c := by
  rw [gfMul_comm, gfMul_xor, gfMul_comm c, gfMul_comm c]

theorem gfMul_ne_zero {a b : Byte} (ha : a ≠ 0#8) (hb : b ≠ 0#8) : gfMul a b ≠ 0#8 := by
  rw [gfMul_of_ne_zero ha hb]
  exact expAt_ne_zero _ (by omega)

theorem logAt_gfMul {a b : Byte} (ha : a ≠ 0#8) (hb : b ≠ 0#8) :
    logAt (gfMul a b) = (logAt a + logAt b) % 255 := by
  rw [gfMul_of_ne_zero ha hb, logAt_expAt _ (Nat.mod_lt _ (by omega))]

theorem gfMul_assoc (a b c : Byte) : gfMul (gfMul a b) c = gfMul a (gfMul b c) := by
  by_cases ha : a = 0#8
  · simp only [ha, zero_gfMul]
  by_cases hb : b = 0#8
  · simp only [hb, zero_gfMul, gfMul_zero]
  by_cases hc : c = 0#8
  · simp only [hc, gfMul_zero]
  rw [gfMul_of_ne_zero (gfMul_ne_zero ha hb) hc, gfMul_of_ne_zero ha (gfMul_ne_zero hb hc), logAt_gfMul ha hb,
    logAt_gfMul hb hc, Nat.mod_add_mod, Nat.add_mod_mod, Nat.add_assoc]

theorem one_gfMul (a : Byte) : gfMul 0x01#8 a = a := gfMul_eq_xtime_iterate (by decide) a

theorem gfMul_one (a : Byte) : gfMul a 0x01#8 = a := by rw [gfMul_comm, one_gfMul]

theorem gfInv_ne_zero (a : Byte) : gfInv a ≠ 0#8 := expAt_ne_zero _ (by omega)

theorem gfInv_gfMul {a : Byte} (ha : a ≠ 0#8) : gfMul (gfInv a) a = 0x01#8 := by
  have hlt := logAt_lt a ha
  have hinv : gfInv a = expAt ((255 - logAt a) % 255) := by
    unfold gfInv
    by_cases h : logAt a = 0
    · rw [h]; rfl
    · rw [Nat.mod_eq_of_lt (by omega)]
  rw [gfMul_of_ne_zero (gfInv_ne_zero a) ha, hinv, logAt_expAt _ (Nat.mod_lt _ (by omega)), Nat.mod_add_mod,
    Nat.sub_add_cancel hlt.le]
  rfl

theorem gfDiv_gfMul (a : Byte) {b : Byte} (hb : b ≠ 0#8) : gfMul (gfDiv a b) b = a := by
  by_cases ha : a = 0#8
  · rw [ha, gfDiv, if_pos rfl, zero_gfMul]
  · have hla := logAt_lt a ha
    have hlb := logAt_lt b hb
    rw [gfDiv, if_neg ha, gfMul_of_ne_zero (expAt_ne_zero _ (by omega)) hb, logAt_expAt _ (Nat.mod_lt _ (by omega)),
      Nat.mod_add_mod, Nat.sub_add_cancel (by omega), Nat.add_mod_right, Nat.mod_eq_of_lt hla, expAt_logAt a ha]

theorem gfMul_xorSum (a : Byte) (n : Nat) (f : Nat → Byte) :
    gfMul a (xorSum n f) = xorSum n fun k => gfMul a (f k) := by
  induction n with
  | zero => exact gfMul_zero a
  | succ n ih => rw [xorSum, gfMul_xor, ih, xorSum]

/-! ### The product of the tables is the product of the polynomials (R120, R123, R126) -/

theorem polyReduce_xor (u v : BitVec 16) (k : Nat) : polyReduce (u ^^^ v) k = polyReduce u k ^^^ polyReduce v k := by
  induction k generalizing u v with
  | zero => rfl
  | succ k ih =>
    have hstep : (if (u ^^^ v).getLsbD (k + 8) then u ^^^ v ^^^ 0x11D#16 <<< k else u ^^^ v) =
        (if u.getLsbD (k + 8) then u ^^^ 0x11D#16 <<< k else u) ^^^
          (if v.getLsbD (k + 8) then v ^^^ 0x11D#16 <<< k else v) := by
      rw [BitVec.getLsbD_xor]
      cases u.getLsbD (k + 8) <;> cases v.getLsbD (k + 8)
      case false.false => rfl
      case true.true => simp [xor_xor_xor_comm _ (0x11D#16 <<< k)]
      case false.true => exact BitVec.xor_assoc _ _ _
      case true.false => simp only [Bool.xor_false, if_true, Bool.false_eq_true, if_false]; ac_rfl
    rw [polyReduce, hstep, ih, polyReduce, polyReduce]

/-- R120 by shift and reduce: the terms of the product are a * x^k for the bits k of b. -/
theorem fieldProduct_eq_xorSum (a b : Byte) :
    fieldProduct a b = xorSum 8 fun k => if b.getLsbD k then xtime^[k] a else 0#8 := by
  have hprefix : ∀ m ≤ 8, (polyReduce (polyProduct a b m) 7).extractLsb' 0 8 =
      xorSum m fun k => if b.getLsbD k then xtime^[k] a else 0#8 := by
    intro m hm
    induction m with
    | zero => exact polyReduce_zero
    | succ m ih =>
      rw [polyProduct, polyReduce_xor, BitVec.extractLsb'_xor, ih (by omega), xorSum]
      congr 1
      cases b.getLsbD m
      case false => exact polyReduce_zero
      case true => exact polyReduce_shift m (by omega) a
  exact hprefix 8 le_rfl

theorem gfMul_eq_fieldProduct (a b : Byte) : gfMul a b = fieldProduct a b := by
  have hpower : ∀ k < 8, gfMul a (expAt k) = xtime^[k] a := fun k hk => by
    rw [gfMul_comm, gfMul_eq_xtime_iterate (expAt_ne_zero k (by omega)), logAt_expAt k (by omega)]
  rw [fieldProduct_eq_xorSum]
  conv_lhs => rw [← xorSum_bits b, gfMul_xorSum]
  refine xorSum_congr fun k hk => ?_
  rw [apply_ite (gfMul a), hpower k hk, gfMul_zero]

end Sys2Proof.Machine
end

section

/-! ## The coded packet (41_encoder.md R155 to R158, 20_memory.md R66, R67) -/

namespace Sys2Proof.Machine

/-! ### The packet in OBUF -/

/-- The eight header bytes of a packet (20_memory.md R66). -/
def headerBytes (gen : Word) (n : Half) : List Byte := be32Bytes gen ++ be16Bytes n ++ be16Bytes n

theorem packetBytes_eq (gen : Word) (n : Half) (c y : List Byte) :
    packetBytes gen n c y = headerBytes gen n ++ (c ++ y) := List.append_assoc _ _ _

@[simp] theorem headerBytes_length (gen : Word) (n : Half) : (headerBytes gen n).length = 8 := rfl

theorem read_emit_header {c y : List Byte} {s : State} {a : Nat} (ha : a < 8) :
    (emit c y s).obuf.read a = (headerBytes s.enc.gen s.enc.n).getD a 0#8 := by
  rw [emit_obuf, Memory.read_writeBytes, packetBytes_eq, List.length_append, headerBytes_length, if_pos (by omega),
    Nat.sub_zero, List.getD_append _ _ _ _ ha]

theorem emit_headerWritten (c y : List Byte) (s : State) :
    HeaderWritten (emit c y s).obuf s.enc.gen s.enc.n := by
  refine ⟨?_, ?_, ?_, ?_, ?_, ?_, ?_, ?_⟩ <;> exact read_emit_header (by omega)

theorem read_emit_vector {c y : List Byte} {s : State} {i : Nat} (hi : i < c.length) :
    (emit c y s).obuf.read (8 + i) = c.getD i 0#8 := by
  rw [emit_obuf, Memory.read_writeBytes, packetBytes_eq, List.length_append, List.length_append, headerBytes_length,
    if_pos (by omega), Nat.sub_zero, List.getD_append_right _ _ _ _ (by simp), headerBytes_length,
    Nat.add_sub_cancel_left, List.getD_append _ _ _ _ hi]

theorem read_emit_payload {c y : List Byte} {s : State} {j : Nat} (hj : j < y.length) :
    (emit c y s).obuf.read (8 + c.length + j) = y.getD j 0#8 := by
  rw [emit_obuf, Memory.read_writeBytes, packetBytes_eq, List.length_append, List.length_append, headerBytes_length,
    if_pos (by omega), Nat.sub_zero, List.getD_append_right _ _ _ _ (by simp; omega), headerBytes_length,
    List.getD_append_right _ _ _ _ (by omega), show 8 + c.length + j - 8 - c.length = j by omega]

theorem read_emit_above {c y : List Byte} {s : State} {a : Nat} (ha : 8 + c.length + y.length ≤ a) :
    (emit c y s).obuf.read a = s.obuf.read a := by
  rw [emit_obuf, Memory.read_writeBytes, packetBytes_eq, List.length_append, List.length_append, headerBytes_length,
    if_neg (by omega)]

/-! ### The coding vector and the coded payload -/

theorem getD_map_range {n i : Nat} (f : Nat → Byte) (hi : i < n) : ((List.range n).map f).getD i 0#8 = f i := by
  simp [List.getD, hi]

@[simp] theorem codingVector_length (e : EncUnit) (r : List Byte) : (codingVector e r).length = e.n.toNat := by
  simp [codingVector]

theorem codingVector_getD {e : EncUnit} {i : Nat} (r : List Byte) (hi : i < e.n.toNat) :
    (codingVector e r).getD i 0#8 = if e.slotValid i then r.getD i 0#8 else 0#8 :=
  getD_map_range _ hi

@[simp] theorem codedPayload_length (s : State) (c : List Byte) : (codedPayload s c).length = s.enc.p.toNat := by
  simp [codedPayload]

theorem codedPayload_getD {s : State} {j : Nat} (c : List Byte) (hj : j < s.enc.p.toNat) :
    (codedPayload s c).getD j 0#8 = codedByte s c j :=
  getD_map_range _ hj

/-- A loop that adds a term for each chosen index computes the sum of the chosen terms. -/
theorem foldl_gfAdd_eq_xorSum (chosen : Nat → Bool) (f : Nat → Byte) (n : Nat) :
    (List.range n).foldl (fun acc i => if chosen i then gfAdd acc (f i) else acc) 0#8 =
      xorSum n fun i => if chosen i then f i else 0#8 := by
  induction n with
  | zero => rfl
  | succ n ih =>
    rw [List.range_succ, List.foldl_append, ih, List.foldl_cons, List.foldl_nil, xorSum]
    cases chosen n
    case false => exact BitVec.xor_zero.symm
    case true => rfl

/-- R156: a coded byte is the sum of the vector's multiples of the buffered bytes. -/
theorem codedByte_eq_xorSum (s : State) (c : List Byte) (j : Nat) :
    codedByte s c j = xorSum s.enc.n.toNat fun i =>
      if s.enc.slotValid i then fieldProduct (c.getD i 0#8) (s.encByte i j) else 0#8 := by
  simp only [codedByte, foldl_gfAdd_eq_xorSum, gfMul_eq_fieldProduct]

/-- On the occupied slots the coding vector holds the draws, so the coded byte is the sum of the draws' multiples. -/
theorem codedByte_codingVector (s : State) (r : List Byte) (j : Nat) :
    codedByte s (codingVector s.enc r) j = xorSum s.enc.n.toNat fun i =>
      if s.enc.slotValid i then fieldProduct (r.getD i 0#8) (s.encByte i j) else 0#8 := by
  rw [codedByte_eq_xorSum]
  refine xorSum_congr fun i hi => ?_
  rw [codingVector_getD r hi]
  split <;> rfl

/-- A generation with an occupied slot below N is not empty (10_state.md R37). -/
theorem count_ne_zero {e : EncUnit} (h : ∃ i < e.n.toNat, e.slotValid i = true) : e.count ≠ 0 := by
  obtain ⟨i, hi, hvalid⟩ := h
  rw [EncUnit.slotValid, List.getD_eq_getElem?_getD] at hvalid
  rw [EncUnit.count, ← Nat.pos_iff_ne_zero, List.count_pos_iff, List.mem_iff_getElem?]
  refine ⟨i, ?_⟩
  rw [List.getElem?_take_of_lt hi]
  cases hget : e.valid[i]? with
  | none => rw [hget] at hvalid; exact absurd hvalid Bool.false_ne_true
  | some b => rw [hget] at hvalid; exact congrArg some hvalid

/-! ### The draws -/

theorem drawAt_ne_zero (k : Nat) : drawAt k ≠ 0#8 := by
  have hlt := (Config.randDraw k).isLt
  intro h
  have hnat := congrArg BitVec.toNat h
  rw [drawAt, BitVec.toNat_ofNat, BitVec.toNat_ofNat] at hnat
  omega

theorem nextDraws_getD_ne_zero (s : State) {n i : Nat} (hi : i < n) : (s.nextDraws n).getD i 0#8 ≠ 0#8 := by
  rw [State.nextDraws, getD_map_range _ hi]
  exact drawAt_ne_zero _

/-- ENC_GEN_CODED with an occupied slot ends in emit (41_encoder.md R157). -/
theorem encGenCoded_of_occupied {s : State} (r : List Byte) (hn : s.enc.n ≠ 0#16)
    (hslot : ∃ i < s.enc.n.toNat, s.enc.slotValid i = true) :
    encGenCoded r s =
      ok 1#32 { emit (codingVector s.enc r) (codedPayload s (codingVector s.enc r)) s with
        drawn := s.drawn + s.enc.n.toNat } := by
  rw [encGenCoded, if_neg hn, if_neg (count_ne_zero hslot)]

theorem encGenCoded_obuf {s : State} (r : List Byte) (hn : s.enc.n ≠ 0#16)
    (hslot : ∃ i < s.enc.n.toNat, s.enc.slotValid i = true) :
    (encGenCoded r s).obuf = (emit (codingVector s.enc r) (codedPayload s (codingVector s.enc r)) s).obuf := by
  rw [encGenCoded_of_occupied r hn hslot, ok_obuf]

/-- Settles O25: the packet's bytes are read back from OBUF part by part. -/
theorem everyDrawVectorGivesItsPacket : Obligations.EveryDrawVectorGivesItsPacket := by
  refine ⟨fun s => ⟨rfl, fun i hi => nextDraws_getD_ne_zero s hi⟩, ?_⟩
  rintro s _ r hn hslot - - rfl
  have hc := codingVector_length s.enc r
  have hy := codedPayload_length s (codingVector s.enc r)
  refine ⟨by rw [encGenCoded_of_occupied r hn hslot]; rfl, ?_⟩
  rw [encGenCoded_obuf r hn hslot]
  refine ⟨emit_headerWritten _ _ s, fun i hi => ?_, fun j hj => ?_, fun a ha => ?_⟩
  · rw [read_emit_vector (hc.symm ▸ hi), codingVector_getD r hi]
  · have hread := read_emit_payload (c := codingVector s.enc r) (s := s) (hy.symm ▸ hj)
    rwa [hc, codedPayload_getD _ hj, codedByte_codingVector] at hread
  · exact read_emit_above (by rwa [hc, hy])

end Sys2Proof.Machine
end

section

/-! ## Row operations (42_decoder.md R183, R192, R201), entry by entry

Both passes of the decoder swap a pivot row into place and add multiples of it to other rows. Their entries are given
here by one formula, and `forall_eq_zero_iff_of_pivoting` says that such a step keeps the common zeros of the rows
under any additive reading of a row. -/

namespace Sys2Proof.Machine

/-! ### Rows and entries -/

theorem matRow_eq_getElem {m : List (List Byte)} {r : Nat} (h : r < m.length) : matRow m r = m[r] := by
  rw [matRow, List.getD_eq_getElem _ _ h]

theorem MatShape.row_length {rows cols r : Nat} {m : List (List Byte)} (h : MatShape rows cols m) (hr : r < rows) :
    (matRow m r).length = cols := by
  obtain ⟨hlen, hrow⟩ := h
  rw [matRow_eq_getElem (hlen ▸ hr)]
  exact hrow _ (List.getElem_mem _)

theorem matShape_of_rows {rows cols : Nat} {m : List (List Byte)} (hlen : m.length = rows)
    (h : ∀ r < rows, (matRow m r).length = cols) : MatShape rows cols m := by
  refine ⟨hlen, fun row hmem => ?_⟩
  obtain ⟨r, hr, rfl⟩ := List.getElem_of_mem hmem
  rw [← matRow_eq_getElem hr]
  exact h r (hlen ▸ hr)

/-- A matrix is known by its shape and its entries. -/
theorem MatShape.ext {rows cols : Nat} {m m' : List (List Byte)} (h : MatShape rows cols m)
    (h' : MatShape rows cols m') (heq : ∀ r < rows, ∀ j < cols, matEntry m r j = matEntry m' r j) : m = m' := by
  refine List.ext_getElem (h.1.trans h'.1.symm) fun r hr hr' => ?_
  have hrow : r < rows := h.1 ▸ hr
  rw [← matRow_eq_getElem hr, ← matRow_eq_getElem hr']
  refine List.ext_getElem ((h.row_length hrow).trans (h'.row_length hrow).symm) fun j hj hj' => ?_
  have hentry := heq r hrow j (h.row_length hrow ▸ hj)
  rwa [matEntry, matEntry, List.getD_eq_getElem _ _ hj, List.getD_eq_getElem _ _ hj'] at hentry

theorem matRow_set {m : List (List Byte)} {i : Nat} (hi : i < m.length) (row : List Byte) (r : Nat) :
    matRow (m.set i row) r = if r = i then row else matRow m r := by
  rw [matRow, List.getD_eq_getElem?_getD]
  by_cases h : r = i
  · rw [h, List.getElem?_set_self hi, if_pos rfl, Option.getD_some]
  · rw [List.getElem?_set_ne (Ne.symm h), if_neg h, matRow, List.getD_eq_getElem?_getD]

theorem matRow_mapIdx {m : List (List Byte)} {r : Nat} (hr : r < m.length) (g : Nat → List Byte → List Byte) :
    matRow (m.mapIdx g) r = g r (matRow m r) := by
  rw [matRow_eq_getElem (by rwa [List.length_mapIdx]), List.getElem_mapIdx, matRow_eq_getElem hr]

@[simp] theorem swapRows_length (m : List (List Byte)) (i p : Nat) : (swapRows m i p).length = m.length := by
  rw [swapRows, List.length_set, List.length_set]

theorem matRow_swapRows {m : List (List Byte)} {i p : Nat} (hi : i < m.length) (hp : p < m.length) (r : Nat) :
    matRow (swapRows m i p) r = matRow m (Equiv.swap i p r) := by
  rw [swapRows, matRow_set (by rwa [List.length_set]), matRow_set hi, Equiv.swap_apply_def]
  by_cases hrp : r = p
  · by_cases hri : r = i
    · rw [if_pos hrp, if_pos hri, ← hri, hrp]
    · rw [if_pos hrp, if_neg hri, if_pos hrp]
  · rw [if_neg hrp, if_neg hrp]
    split <;> rfl

theorem swap_lt {n i p r : Nat} (hi : i < n) (hp : p < n) (hr : r < n) : Equiv.swap i p r < n := by
  rw [Equiv.swap_apply_def]
  split_ifs <;> assumption

/-! ### Scaling a row and adding a multiple of a row -/

@[simp] theorem scaleRow_length (v : Byte) (row : List Byte) : (scaleRow v row).length = row.length :=
  List.length_map _

theorem scaleRow_getD (v : Byte) (row : List Byte) (k : Nat) :
    (scaleRow v row).getD k 0#8 = gfMul v (row.getD k 0#8) := by
  rw [scaleRow, List.getD_eq_getElem?_getD, List.getD_eq_getElem?_getD, List.getElem?_map]
  cases row[k]? with
  | none => exact (gfMul_zero v).symm
  | some => rfl

theorem addMultiple_length {f : Byte} {src dst : List Byte} (h : src.length = dst.length) :
    (addMultiple f src dst).length = dst.length := by
  rw [addMultiple, List.length_zipWith, h, Nat.min_self]

theorem addMultiple_getD {src dst : List Byte} (f : Byte) (h : src.length = dst.length) (k : Nat) :
    (addMultiple f src dst).getD k 0#8 = dst.getD k 0#8 ^^^ gfMul f (src.getD k 0#8) := by
  by_cases hk : k < dst.length
  · rw [List.getD_eq_getElem _ _ (by rwa [addMultiple_length h]), List.getD_eq_getElem _ _ hk,
      List.getD_eq_getElem _ _ (h ▸ hk)]
    exact List.getElem_zipWith
  · rw [List.getD_eq_default _ _ (by rw [addMultiple_length h]; omega), List.getD_eq_default _ _ (by omega),
      List.getD_eq_default _ _ (by omega), gfMul_zero, BitVec.xor_self]

theorem addMultipleFrom_length {col : Nat} {f : Byte} {src dst : List Byte} (h : src.length = dst.length) :
    (addMultipleFrom col f src dst).length = dst.length := by
  rw [addMultipleFrom, List.length_append, addMultiple_length (by simp [h]), List.length_take, List.length_drop]
  omega

theorem addMultipleFrom_getD {src dst : List Byte} {col : Nat} (f : Byte) (h : src.length = dst.length)
    (hcol : col ≤ dst.length) (k : Nat) :
    (addMultipleFrom col f src dst).getD k 0#8 =
      dst.getD k 0#8 ^^^ if col ≤ k then gfMul f (src.getD k 0#8) else 0#8 := by
  have htake : (dst.take col).length = col := List.length_take_of_le hcol
  rw [addMultipleFrom]
  by_cases hk : col ≤ k
  · rw [List.getD_append_right _ _ _ _ (by omega), htake, addMultiple_getD _ (by simp [h]), if_pos hk]
    simp only [List.getD_eq_getElem?_getD, List.getElem?_drop, Nat.add_sub_cancel' hk]
  · rw [List.getD_append _ _ _ _ (by omega), if_neg hk, BitVec.xor_zero]
    simp only [List.getD_eq_getElem?_getD, List.getElem?_take_of_lt (Nat.lt_of_not_le hk)]

/-! ### The search for a pivot -/

theorem pivotRow_eq_some {m : List (List Byte)} {n col start p : Nat} (h : pivotRow m n col start = some p) :
    start ≤ p ∧ p < n ∧ matEntry m p col ≠ 0#8 := by
  have hmem := List.mem_range'_1.1 (List.mem_of_find?_eq_some h)
  have hne := List.find?_some h
  rw [bne_iff_ne] at hne
  exact ⟨hmem.1, by omega, hne⟩

theorem pivotRow_eq_none {m : List (List Byte)} {n col start r : Nat} (h : pivotRow m n col start = none)
    (hr : start ≤ r) (hn : r < n) : matEntry m r col = 0#8 := by
  have hnone := List.find?_eq_none.1 h r (List.mem_range'_1.2 ⟨hr, by omega⟩)
  rwa [bne_iff_ne, not_not] at hnone

/-! ### A pivoting step keeps the zeros -/

/-- Let e r read row r, and e' the rows after a pivoting step: row i is a nonzero multiple of the old row p, and every
other row is a row of the old matrix, rows i and p swapped, with a multiple of row p added. All of the new readings are
0 exactly when all of the old ones are. -/
theorem forall_eq_zero_iff_of_pivoting {n i p : Nat} {v : Byte} {e e' f : Nat → Byte} (hi : i < n) (hp : p < n)
    (hv : v ≠ 0#8) (hpivot : e' i = gfMul v (e p))
    (hother : ∀ r < n, r ≠ i → e' r = e (Equiv.swap i p r) ^^^ gfMul (f r) (e p)) :
    (∀ r < n, e' r = 0#8) ↔ ∀ r < n, e r = 0#8 := by
  constructor
  · intro h
    have hep : e p = 0#8 := by
      by_contra hne
      exact gfMul_ne_zero hv hne (hpivot ▸ h i hi)
    intro r hr
    by_cases hrp : r = p
    · rw [hrp, hep]
    · have hswap : Equiv.swap i p r ≠ i := by
        rw [Ne, Equiv.swap_apply_eq_iff, Equiv.swap_apply_left]
        exact hrp
      have hzero := h _ (swap_lt hi hp hr)
      rwa [hother _ (swap_lt hi hp hr) hswap, Equiv.swap_apply_self, hep, gfMul_zero, BitVec.xor_zero] at hzero
  · intro h r hr
    by_cases hri : r = i
    · rw [hri, hpivot, h p hp, gfMul_zero]
    · rw [hother r hr hri, h _ (swap_lt hi hp hr), h p hp, gfMul_zero, BitVec.xor_self]

/-! ### The rank pass, one column (42_decoder.md R183) -/

theorem MatShape.swapRows {rows cols i p : Nat} {m : List (List Byte)} (h : MatShape rows cols m) (hi : i < rows)
    (hp : p < rows) : MatShape rows cols (swapRows m i p) := by
  refine matShape_of_rows ((swapRows_length ..).trans h.1) fun r hr => ?_
  rw [matRow_swapRows (h.1 ▸ hi) (h.1 ▸ hp)]
  exact h.row_length (swap_lt hi hp hr)

theorem matEntry_swapRows {rows cols i p : Nat} {m : List (List Byte)} (h : MatShape rows cols m) (hi : i < rows)
    (hp : p < rows) (r j : Nat) : matEntry (swapRows m i p) r j = matEntry m (Equiv.swap i p r) j := by
  rw [matEntry, matRow_swapRows (h.1 ▸ hi) (h.1 ▸ hp), matEntry]

theorem zero_gfDiv (b : Byte) : gfDiv 0#8 b = 0#8 := if_pos rfl

theorem MatShape.eliminateBelow {rows cols r : Nat} {m : List (List Byte)} (h : MatShape rows cols m) (hr : r < rows)
    (col : Nat) : MatShape rows cols (eliminateBelow m r col) := by
  refine matShape_of_rows (List.length_mapIdx.trans h.1) fun k hk => ?_
  rw [Machine.eliminateBelow, matRow_mapIdx (h.1 ▸ hk)]
  split
  · rw [addMultipleFrom_length ((h.row_length hr).trans (h.row_length hk).symm), h.row_length hk]
  · exact h.row_length hk

theorem matEntry_eliminateBelow {rows cols r col k : Nat} {m : List (List Byte)} (h : MatShape rows cols m)
    (hr : r < rows) (hcol : col < cols) (hk : k < rows) (j : Nat) :
    matEntry (eliminateBelow m r col) k j = matEntry m k j ^^^
      if r < k ∧ col ≤ j then gfMul (gfDiv (matEntry m k col) (matEntry m r col)) (matEntry m r j) else 0#8 := by
  rw [matEntry, eliminateBelow, matRow_mapIdx (h.1 ▸ hk)]
  by_cases hrk : r < k
  · by_cases hzero : matEntry m k col = 0#8
    · rw [if_neg fun hc => hc.2 hzero, hzero, zero_gfDiv, zero_gfMul, ite_self, BitVec.xor_zero, matEntry]
    · rw [if_pos ⟨hrk, hzero⟩, addMultipleFrom_getD _ ((h.row_length hr).trans (h.row_length hk).symm)
        (by rw [h.row_length hk]; omega)]
      simp only [hrk, true_and, matEntry]
  · rw [if_neg fun hc => hrk hc.1, if_neg fun hc => hrk hc.1, BitVec.xor_zero, matEntry]

/-- The scratch matrix after a column with pivot row p (42_decoder.md R183). -/
def pivotBelow (m : List (List Byte)) (r p col : Nat) : List (List Byte) := eliminateBelow (swapRows m r p) r col

theorem MatShape.pivotBelow {rows cols r p : Nat} {m : List (List Byte)} (h : MatShape rows cols m) (hr : r < rows)
    (hp : p < rows) (col : Nat) : MatShape rows cols (pivotBelow m r p col) :=
  (h.swapRows hr hp).eliminateBelow hr col

theorem matEntry_pivotBelow {rows cols r p col k : Nat} {m : List (List Byte)} (h : MatShape rows cols m)
    (hr : r < rows) (hp : p < rows) (hcol : col < cols) (hk : k < rows) (j : Nat) :
    matEntry (pivotBelow m r p col) k j = matEntry m (Equiv.swap r p k) j ^^^
      if r < k ∧ col ≤ j then
        gfMul (gfDiv (matEntry m (Equiv.swap r p k) col) (matEntry m p col)) (matEntry m p j)
      else 0#8 := by
  rw [pivotBelow, matEntry_eliminateBelow (h.swapRows hr hp) hr hcol hk]
  simp only [matEntry_swapRows h hr hp, Equiv.swap_apply_left]

theorem rankColumn_of_full {n col : Nat} {w : List (List Byte) × Nat} (h : w.2 = n) : rankColumn n w col = w :=
  if_pos h

theorem rankColumn_of_none {n col : Nat} {w : List (List Byte) × Nat} (h : pivotRow w.1 n col w.2 = none) :
    rankColumn n w col = w := by
  rw [rankColumn, h, ite_self]

theorem rankColumn_of_some {n col p : Nat} {w : List (List Byte) × Nat} (hfull : w.2 ≠ n)
    (h : pivotRow w.1 n col w.2 = some p) : rankColumn n w col = (pivotBelow w.1 w.2 p col, w.2 + 1) := by
  rw [rankColumn, if_neg hfull, h, pivotBelow]

/-- What one column of the rank pass can do: nothing, with full rank or no pivot below; or one pivoting step. -/
theorem rankColumn_cases (n col : Nat) (w : List (List Byte) × Nat) :
    (rankColumn n w col = w ∧ (w.2 = n ∨ ∀ r, w.2 ≤ r → r < n → matEntry w.1 r col = 0#8)) ∨
      ∃ p, w.2 ≤ p ∧ p < n ∧ matEntry w.1 p col ≠ 0#8 ∧
        rankColumn n w col = (pivotBelow w.1 w.2 p col, w.2 + 1) := by
  by_cases hfull : w.2 = n
  · exact .inl ⟨rankColumn_of_full hfull, .inl hfull⟩
  · cases hp : pivotRow w.1 n col w.2 with
    | none => exact .inl ⟨rankColumn_of_none hp, .inr fun r => pivotRow_eq_none hp⟩
    | some p =>
      obtain ⟨hle, hlt, hne⟩ := pivotRow_eq_some hp
      exact .inr ⟨p, hle, hlt, hne, rankColumn_of_some hfull hp⟩

/-- The scratch matrix and the rank after the first `cols` columns of the rank pass. -/
def rankAfter (n : Nat) (c : List (List Byte)) (cols : Nat) : List (List Byte) × Nat :=
  (List.range cols).foldl (rankColumn n) (c, 0)

theorem rankOf_eq (n : Nat) (c : List (List Byte)) : rankOf n c = (rankAfter n c n).2 := rfl

theorem rankAfter_succ (n : Nat) (c : List (List Byte)) (cols : Nat) :
    rankAfter n c (cols + 1) = rankColumn n (rankAfter n c cols) cols := by
  rw [rankAfter, List.range_succ, List.foldl_append]; rfl

/-! ### Bounds on the rank -/

theorem rankColumn_snd_le (n col : Nat) (w : List (List Byte) × Nat) : (rankColumn n w col).2 ≤ w.2 + 1 := by
  obtain ⟨hw, -⟩ | ⟨p, -, -, -, hw⟩ := rankColumn_cases n col w
  · rw [hw]; exact Nat.le_succ _
  · rw [hw]

theorem rankAfter_add_le (n : Nat) (c : List (List Byte)) (cols d : Nat) :
    (rankAfter n c (cols + d)).2 ≤ (rankAfter n c cols).2 + d := by
  induction d with
  | zero => exact le_rfl
  | succ d ih =>
    rw [← Nat.add_assoc, rankAfter_succ]
    exact (rankColumn_snd_le _ _ _).trans (Nat.succ_le_succ ih)

theorem rankAfter_le (n : Nat) (c : List (List Byte)) (cols : Nat) : (rankAfter n c cols).2 ≤ cols := by
  have h := rankAfter_add_le n c 0 cols
  rwa [Nat.zero_add, show (rankAfter n c 0).2 = 0 from rfl, Nat.zero_add] at h

/-- With full rank every column of the rank pass finds a pivot. -/
theorem rankAfter_of_full {n : Nat} {c : List (List Byte)} (h : rankOf n c = n) {cols : Nat} (hcols : cols ≤ n) :
    (rankAfter n c cols).2 = cols := by
  have hle := rankAfter_le n c cols
  have hrest := rankAfter_add_le n c cols (n - cols)
  rw [Nat.add_sub_cancel' hcols, ← rankOf_eq, h] at hrest
  omega

theorem rankAfter_shape {n : Nat} {c : List (List Byte)} (h : MatShape n n c) (cols : Nat) :
    MatShape n n (rankAfter n c cols).1 := by
  induction cols with
  | zero => exact h
  | succ cols ih =>
    rw [rankAfter_succ]
    obtain ⟨hw, -⟩ | ⟨p, hle, hp, -, hw⟩ := rankColumn_cases n cols (rankAfter n c cols)
    · rwa [hw]
    · rw [hw]
      exact ih.pivotBelow (Nat.lt_of_le_of_lt hle hp) hp cols

/-- The rows of a matrix from row k on are zero. -/
def ZeroFrom (n k : Nat) (m : List (List Byte)) : Prop := ∀ r < n, k ≤ r → ∀ j < n, matEntry m r j = 0#8

theorem ZeroFrom.pivotBelow {n k r p col : Nat} {m : List (List Byte)} (hzero : ZeroFrom n k m) (h : MatShape n n m)
    (hr : r < k) (hp : p < k) (hk : k ≤ n) (hcol : col < n) : ZeroFrom n k (pivotBelow m r p col) := by
  intro r' hr' hkr' j hj
  rw [matEntry_pivotBelow h (by omega) (by omega) hcol hr',
    Equiv.swap_apply_of_ne_of_ne (by omega) (by omega), hzero r' hr' hkr' j hj, hzero r' hr' hkr' col hcol, zero_gfDiv,
    zero_gfMul, ite_self, BitVec.xor_self]

/-- The pass keeps zero rows zero and takes no pivot from them. -/
theorem rankAfter_zeroFrom {n k : Nat} {c : List (List Byte)} (h : MatShape n n c) (hk : k ≤ n)
    (hzero : ZeroFrom n k c) {cols : Nat} (hcols : cols ≤ n) :
    ZeroFrom n k (rankAfter n c cols).1 ∧ (rankAfter n c cols).2 ≤ k := by
  induction cols with
  | zero => exact ⟨hzero, Nat.zero_le k⟩
  | succ cols ih =>
    obtain ⟨hz, hle⟩ := ih (by omega)
    rw [rankAfter_succ]
    obtain ⟨hw, -⟩ | ⟨p, hrp, hp, hne, hw⟩ := rankColumn_cases n cols (rankAfter n c cols)
    · rw [hw]; exact ⟨hz, hle⟩
    · have hpk : p < k := by
        by_contra hge
        exact hne (hz p hp (Nat.le_of_not_lt hge) cols hcols)
      rw [hw]
      exact ⟨hz.pivotBelow (rankAfter_shape h cols) (by omega) hpk hk hcols, by simp only; omega⟩

/-- R47: the rank is at most the number of populated rows. -/
theorem rankOf_le_of_zeroFrom {n k : Nat} {c : List (List Byte)} (h : MatShape n n c) (hk : k ≤ n)
    (hzero : ZeroFrom n k c) : rankOf n c ≤ k :=
  (rankAfter_zeroFrom h hk hzero le_rfl).2

/-! ### The kernel of a matrix -/

/-- Row r of the matrix applied to the column x. -/
def rowDot (n : Nat) (m : List (List Byte)) (x : Nat → Byte) (r : Nat) : Byte :=
  xorSum n fun k => gfMul (matEntry m r k) (x k)

theorem rowDot_of_scaled {n r q : Nat} {v : Byte} {m m' : List (List Byte)}
    (h : ∀ j < n, matEntry m' r j = gfMul v (matEntry m q j)) (x : Nat → Byte) :
    rowDot n m' x r = gfMul v (rowDot n m x q) := by
  rw [rowDot, rowDot, gfMul_xorSum]
  exact xorSum_congr fun k hk => by rw [h k hk, gfMul_assoc]

theorem rowDot_of_added {n r q p : Nat} {f : Byte} {m m' : List (List Byte)}
    (h : ∀ j < n, matEntry m' r j = matEntry m q j ^^^ gfMul f (matEntry m p j)) (x : Nat → Byte) :
    rowDot n m' x r = rowDot n m x q ^^^ gfMul f (rowDot n m x p) := by
  rw [rowDot, rowDot, rowDot, gfMul_xorSum, ← xorSum_xor]
  exact xorSum_congr fun k hk => by rw [h k hk, xor_gfMul, gfMul_assoc]

/-- Only the zero column is sent to zero. -/
def TrivialKernel (n : Nat) (m : List (List Byte)) : Prop :=
  ∀ x : Nat → Byte, (∀ r < n, rowDot n m x r = 0#8) → ∀ k < n, x k = 0#8

/-- A pivoting step changes no kernel. -/
theorem trivialKernel_iff_of_pivoting {n i p : Nat} {v : Byte} {f : Nat → Byte} {m m' : List (List Byte)} (hi : i < n)
    (hp : p < n) (hv : v ≠ 0#8) (hpivot : ∀ j < n, matEntry m' i j = gfMul v (matEntry m p j))
    (hother : ∀ r < n, r ≠ i → ∀ j < n,
      matEntry m' r j = matEntry m (Equiv.swap i p r) j ^^^ gfMul (f r) (matEntry m p j)) :
    TrivialKernel n m' ↔ TrivialKernel n m := by
  refine forall_congr' fun x => imp_congr_left ?_
  exact forall_eq_zero_iff_of_pivoting hi hp hv (rowDot_of_scaled hpivot x) fun r hr hri =>
    rowDot_of_added (hother r hr hri) x

/-- Back substitution: an upper triangular matrix with no zero on its diagonal has a trivial kernel. -/
theorem trivialKernel_of_triangular {n : Nat} {m : List (List Byte)} (hlower : ∀ r < n, ∀ j < r, matEntry m r j = 0#8)
    (hdiag : ∀ r < n, matEntry m r r ≠ 0#8) : TrivialKernel n m := by
  intro x hx
  have hback : ∀ d, ∀ k < n, n ≤ k + d → x k = 0#8 := by
    intro d
    induction d with
    | zero => intro k hk hd; omega
    | succ d ih =>
      intro k hk hd
      have hrow : rowDot n m x k = gfMul (matEntry m k k) (x k) := by
        refine xorSum_eq_single hk fun j hj hjk => ?_
        by_cases hlt : j < k
        · rw [hlower k hk j hlt, zero_gfMul]
        · rw [ih j hj (by omega), gfMul_zero]
      by_contra hne
      exact gfMul_ne_zero (hdiag k hk) hne (hrow ▸ hx k hk)
  exact fun k hk => hback n k hk (Nat.le_add_left n k)

/-! ### Full rank gives a trivial kernel -/

/-- The scratch matrix after `cols` columns that each had a pivot: triangular there, with the kernel it began with. -/
structure RankTriangular (n cols : Nat) (c m : List (List Byte)) : Prop where
  shape : MatShape n n m
  lower : ∀ r < n, ∀ j < cols, j < r → matEntry m r j = 0#8
  diag : ∀ r < cols, matEntry m r r ≠ 0#8
  kernel : TrivialKernel n m ↔ TrivialKernel n c

theorem RankTriangular.pivotBelow {n cols p : Nat} {c m : List (List Byte)} (h : RankTriangular n cols c m)
    (hcols : cols < n) (hle : cols ≤ p) (hp : p < n) (hne : matEntry m p cols ≠ 0#8) :
    RankTriangular n (cols + 1) c (pivotBelow m cols p cols) := by
  have hentry {r : Nat} (hr : r < n) := matEntry_pivotBelow h.shape hcols hp hcols hr
  have hpzero {j : Nat} (hj : j < cols) : matEntry m p j = 0#8 := h.lower p hp j hj (by omega)
  refine ⟨h.shape.pivotBelow hcols hp cols, fun r hr j hj hjr => ?_, fun r hr => ?_, ?_⟩
  · rw [hentry hr]
    by_cases hjc : j = cols
    · rw [hjc, if_pos ⟨hjc ▸ hjr, le_rfl⟩, gfDiv_gfMul _ hne, BitVec.xor_self]
    · rw [if_neg (by omega), BitVec.xor_zero]
      refine h.lower _ (swap_lt hcols hp hr) j (by omega) ?_
      rw [Equiv.swap_apply_def]
      split_ifs <;> omega
  · rw [hentry (by omega), if_neg (by omega), BitVec.xor_zero]
    by_cases hrc : r = cols
    · rwa [hrc, Equiv.swap_apply_left]
    · rw [Equiv.swap_apply_of_ne_of_ne hrc (by omega)]
      exact h.diag r (by omega)
  · refine Iff.trans (trivialKernel_iff_of_pivoting (v := 0x01#8)
      (f := fun r => if cols < r then gfDiv (matEntry m (Equiv.swap cols p r) cols) (matEntry m p cols) else 0#8)
      hcols hp (by decide) (fun j hj => ?_) fun r hr hrc j hj => ?_) h.kernel
    · rw [hentry hcols, if_neg (by omega), BitVec.xor_zero, Equiv.swap_apply_left, one_gfMul]
    · rw [hentry hr]
      congr 1
      by_cases hjc : j < cols
      · rw [if_neg (by omega), hpzero hjc, gfMul_zero]
      · by_cases hr' : cols < r
        · rw [if_pos ⟨hr', by omega⟩, if_pos hr']
        · rw [if_neg (by omega), if_neg hr', zero_gfMul]

theorem rankAfter_triangular {n : Nat} {c : List (List Byte)} (h : MatShape n n c) (hfull : rankOf n c = n)
    {cols : Nat} (hcols : cols ≤ n) : RankTriangular n cols c (rankAfter n c cols).1 := by
  induction cols with
  | zero => exact ⟨h, fun _ _ j hj => absurd hj j.not_lt_zero, fun r hr => absurd hr r.not_lt_zero, Iff.rfl⟩
  | succ cols ih =>
    have hrank := rankAfter_of_full hfull (Nat.le_of_succ_le hcols)
    have hnext := rankAfter_of_full hfull hcols
    rw [rankAfter_succ] at hnext ⊢
    obtain ⟨hw, -⟩ | ⟨p, hle, hp, hne, hw⟩ := rankColumn_cases n cols (rankAfter n c cols)
    · rw [hw, hrank] at hnext
      exact absurd hnext (Nat.ne_of_lt (Nat.lt_succ_self cols))
    · rw [hrank] at hw hle
      rw [hw]
      exact (ih (by omega)).pivotBelow hcols hle hp hne

/-- A matrix of full rank sends only the zero column to zero. -/
theorem trivialKernel_of_rankOf_eq {n : Nat} {c : List (List Byte)} (h : MatShape n n c) (hfull : rankOf n c = n) :
    TrivialKernel n c := by
  have htri := rankAfter_triangular h hfull le_rfl
  exact htri.kernel.1 (trivialKernel_of_triangular (fun r hr j hj => htri.lower r hr j (by omega) hj) htri.diag)

end Sys2Proof.Machine
end

section

/-! ## The elimination of decode() (42_decoder.md R192 to R194)

A step with a pivot makes its column a unit column and keeps the kernel trivial. A step without one would exhibit a
column in the kernel, so an elimination that begins with a trivial kernel ends with the identity. -/

namespace Sys2Proof.Machine

/-! ### One step -/

theorem matRow_clearColumn {i k : Nat} {fs pivot : List Byte} {m : List (List Byte)} (hk : k < m.length) :
    matRow (clearColumn i fs pivot m) k =
      if k ≠ i ∧ fs.getD k 0#8 ≠ 0#8 then addMultiple (fs.getD k 0#8) pivot (matRow m k) else matRow m k := by
  rw [clearColumn, matRow_mapIdx hk]

/-- A matrix after pivot row p is swapped to row i, scaled by v and cleared from the other rows with the factors fs
(42_decoder.md R192). -/
def pivotStep (i p : Nat) (v : Byte) (fs : List Byte) (m : List (List Byte)) : List (List Byte) :=
  clearColumn i fs (scaleRow v (matRow (swapRows m i p) i))
    ((swapRows m i p).set i (scaleRow v (matRow (swapRows m i p) i)))

section
variable {rows cols i p : Nat} {v : Byte} {fs : List Byte} {m : List (List Byte)}

theorem matRow_pivotStep_self (h : MatShape rows cols m) (hi : i < rows) (hp : p < rows) :
    matRow (pivotStep i p v fs m) i = scaleRow v (matRow m p) := by
  obtain ⟨hlen, -⟩ := h.swapRows hi hp
  rw [pivotStep, matRow_clearColumn (by rw [List.length_set, hlen]; exact hi), if_neg fun hc => hc.1 rfl,
    matRow_set (hlen ▸ hi), if_pos rfl, matRow_swapRows (h.1 ▸ hi) (h.1 ▸ hp), Equiv.swap_apply_left]

theorem matRow_pivotStep_of_ne {k : Nat} (h : MatShape rows cols m) (hi : i < rows) (hp : p < rows) (hk : k < rows)
    (hki : k ≠ i) :
    matRow (pivotStep i p v fs m) k =
      if fs.getD k 0#8 ≠ 0#8 then
        addMultiple (fs.getD k 0#8) (scaleRow v (matRow m p)) (matRow m (Equiv.swap i p k))
      else matRow m (Equiv.swap i p k) := by
  obtain ⟨hlen, -⟩ := h.swapRows hi hp
  rw [pivotStep, matRow_clearColumn (by rw [List.length_set, hlen]; exact hk), matRow_set (hlen ▸ hi), if_neg hki,
    matRow_swapRows (h.1 ▸ hi) (h.1 ▸ hp), matRow_swapRows (h.1 ▸ hi) (h.1 ▸ hp), Equiv.swap_apply_left]
  simp only [hki, ne_eq, not_false_eq_true, true_and]

theorem MatShape.pivotStep (h : MatShape rows cols m) (hi : i < rows) (hp : p < rows) :
    MatShape rows cols (pivotStep i p v fs m) := by
  have hlen : (Machine.pivotStep i p v fs m).length = rows := by
    rw [Machine.pivotStep, clearColumn, List.length_mapIdx, List.length_set, swapRows_length, h.1]
  refine matShape_of_rows hlen fun k hk => ?_
  have hpivot : (scaleRow v (matRow m p)).length = cols := (scaleRow_length ..).trans (h.row_length hp)
  have hother := h.row_length (swap_lt hi hp hk)
  by_cases hki : k = i
  · rw [hki, matRow_pivotStep_self h hi hp, hpivot]
  · rw [matRow_pivotStep_of_ne h hi hp hk hki]
    split
    · rw [addMultiple_length (hpivot.trans hother.symm), hother]
    · exact hother

theorem matEntry_pivotStep_self (h : MatShape rows cols m) (hi : i < rows) (hp : p < rows) (j : Nat) :
    matEntry (pivotStep i p v fs m) i j = gfMul v (matEntry m p j) := by
  rw [matEntry, matRow_pivotStep_self h hi hp, scaleRow_getD, matEntry]

theorem matEntry_pivotStep_of_ne {k : Nat} (h : MatShape rows cols m) (hi : i < rows) (hp : p < rows) (hk : k < rows)
    (hki : k ≠ i) (j : Nat) :
    matEntry (pivotStep i p v fs m) k j =
      matEntry m (Equiv.swap i p k) j ^^^ gfMul (fs.getD k 0#8) (gfMul v (matEntry m p j)) := by
  rw [matEntry, matRow_pivotStep_of_ne h hi hp hk hki]
  have hpivot : (scaleRow v (matRow m p)).length = cols := (scaleRow_length ..).trans (h.row_length hp)
  split
  case isTrue =>
    rw [addMultiple_getD _ (hpivot.trans (h.row_length (swap_lt hi hp hk)).symm), scaleRow_getD, matEntry, matEntry]
  case isFalse hf => rw [not_not.1 hf, zero_gfMul, BitVec.xor_zero, matEntry]

end

/-- Column i of a matrix with rows i and p swapped: the factors of the step (42_decoder.md R192). -/
def stepFactors (c : List (List Byte)) (i p : Nat) : List Byte := (swapRows c i p).map fun row => row.getD i 0#8

theorem stepFactors_getD {rows cols i p k : Nat} {c : List (List Byte)} (h : MatShape rows cols c) (hi : i < rows)
    (hp : p < rows) (hk : k < rows) :
    (stepFactors c i p).getD k 0#8 = matEntry c (Equiv.swap i p k) i := by
  obtain ⟨hlen, -⟩ := h.swapRows hi hp
  rw [← matEntry_swapRows h hi hp, matEntry, matRow_eq_getElem (hlen ▸ hk), stepFactors,
    List.getD_eq_getElem _ _ (by rw [List.length_map, hlen]; exact hk), List.getElem_map]

/-- What a step of decode() can do before any abort: abort, with nothing but zeros in column i from row i down; or one
pivoting step on both matrices. -/
theorem eliminationStep_cases {n i : Nat} {w : Elimination} (hw : w.aborted = false) :
    ((∀ r, i ≤ r → r < n → matEntry w.c r i = 0#8) ∧ eliminationStep n w i = { w with aborted := true }) ∨
      ∃ p, i ≤ p ∧ p < n ∧ matEntry w.c p i ≠ 0#8 ∧
        eliminationStep n w i =
          { c := pivotStep i p (gfInv (matEntry (swapRows w.c i p) i i)) (stepFactors w.c i p) w.c
            y := pivotStep i p (gfInv (matEntry (swapRows w.c i p) i i)) (stepFactors w.c i p) w.y
            aborted := false } := by
  rw [eliminationStep, hw]
  cases hp : pivotRow w.c n i i with
  | none => exact .inl ⟨fun r => pivotRow_eq_none hp, rfl⟩
  | some p =>
    obtain ⟨hle, hlt, hne⟩ := pivotRow_eq_some hp
    exact .inr ⟨p, hle, hlt, hne, rfl⟩

/-- The matrices after the first i steps of decode(). -/
def eliminationAfter (n : Nat) (c y : List (List Byte)) (i : Nat) : Elimination :=
  (List.range i).foldl (eliminationStep n) { c := c, y := y, aborted := false }

theorem gaussJordan_eq (n : Nat) (c y : List (List Byte)) : gaussJordan n c y = eliminationAfter n c y n := rfl

theorem eliminationAfter_succ (n : Nat) (c y : List (List Byte)) (i : Nat) :
    eliminationAfter n c y (i + 1) = eliminationStep n (eliminationAfter n c y i) i := by
  rw [eliminationAfter, List.range_succ, List.foldl_append]; rfl

/-! ### Unit columns and the kernel -/

/-- The first i columns are those of the identity. -/
def UnitColumns (n i : Nat) (c : List (List Byte)) : Prop :=
  ∀ r < n, ∀ j < i, matEntry c r j = if r = j then 0x01#8 else 0x00#8

/-- The column that an i-th column without a pivot puts in the kernel. -/
def kernelColumn (c : List (List Byte)) (i k : Nat) : Byte :=
  if k < i then matEntry c k i else if k = i then 0x01#8 else 0#8

theorem rowDot_kernelColumn {n i r : Nat} {c : List (List Byte)} (hunit : UnitColumns n i c) (hi : i < n)
    (hzero : ∀ r, i ≤ r → r < n → matEntry c r i = 0#8) (hr : r < n) : rowDot n c (kernelColumn c i) r = 0#8 := by
  have hterm : ∀ k < n, gfMul (matEntry c r k) (kernelColumn c i k) =
      (if k = r then matEntry c r i else 0#8) ^^^ (if k = i then matEntry c r i else 0#8) := by
    intro k hk
    by_cases hki : k < i
    · rw [kernelColumn, if_pos hki, hunit r hr k hki, if_neg hki.ne, BitVec.xor_zero]
      by_cases hkr : k = r
      · rw [if_pos hkr.symm, if_pos hkr, one_gfMul, hkr]
      · rw [if_neg (Ne.symm hkr), if_neg hkr, zero_gfMul]
    · have hfirst : (if k = r then matEntry c r i else 0#8) = 0#8 := by
        split
        case isTrue hkr => exact hzero r (by omega) hr
        case isFalse => rfl
      rw [kernelColumn, if_neg hki, hfirst, BitVec.zero_xor]
      by_cases hkeq : k = i
      · rw [if_pos hkeq, if_pos hkeq, gfMul_one, hkeq]
      · rw [if_neg hkeq, if_neg hkeq, gfMul_zero]
  rw [rowDot, xorSum_congr hterm, xorSum_xor, xorSum_eq_single hr fun k _ hk => if_neg hk,
    xorSum_eq_single hi fun k _ hk => if_neg hk, if_pos rfl, if_pos rfl, BitVec.xor_self]

/-- With a trivial kernel, every column finds a pivot. -/
theorem not_trivialKernel_of_zeroColumn {n i : Nat} {c : List (List Byte)} (hunit : UnitColumns n i c) (hi : i < n)
    (hzero : ∀ r, i ≤ r → r < n → matEntry c r i = 0#8) : ¬ TrivialKernel n c := by
  intro hkernel
  have hone := hkernel _ (fun r hr => rowDot_kernelColumn hunit hi hzero hr) i hi
  rw [kernelColumn, if_neg (Nat.lt_irrefl i), if_pos rfl] at hone
  exact absurd hone (by decide)

/-! ### The elimination step by step -/

/-- The matrices of decode() after i steps, when the kernel of C was trivial. -/
structure Eliminated (n p i : Nat) (w : Elimination) : Prop where
  goesOn : w.aborted = false
  shapeC : MatShape n n w.c
  shapeY : MatShape n p w.y
  unit : UnitColumns n i w.c
  kernel : TrivialKernel n w.c

theorem unitColumns_pivotStep {n i p : Nat} {c : List (List Byte)} (h : MatShape n n c) (hunit : UnitColumns n i c)
    (hi : i < n) (hle : i ≤ p) (hp : p < n) (hne : matEntry c p i ≠ 0#8) :
    UnitColumns n (i + 1) (pivotStep i p (gfInv (matEntry c p i)) (stepFactors c i p) c) := by
  intro r hr j hj
  by_cases hji : j = i
  · by_cases hri : r = i
    · rw [hri, hji, matEntry_pivotStep_self h hi hp, gfInv_gfMul hne, if_pos rfl]
    · rw [matEntry_pivotStep_of_ne h hi hp hr hri, hji, gfInv_gfMul hne, gfMul_one, stepFactors_getD h hi hp hr,
        BitVec.xor_self, if_neg hri]
  · have hjlt : j < i := by omega
    have hpj : matEntry c p j = 0#8 := (hunit p hp j hjlt).trans (if_neg (by omega))
    by_cases hri : r = i
    · rw [hri, matEntry_pivotStep_self h hi hp, hpj, gfMul_zero, if_neg (Ne.symm hji)]
    · have hswap : Equiv.swap i p r = j ↔ r = j := by
        rw [Equiv.swap_apply_eq_iff, Equiv.swap_apply_of_ne_of_ne hji (by omega)]
      rw [matEntry_pivotStep_of_ne h hi hp hr hri, hpj, gfMul_zero, gfMul_zero, BitVec.xor_zero,
        hunit _ (swap_lt hi hp hr) j hjlt]
      simp only [hswap]

theorem Eliminated.step {n p i : Nat} {w : Elimination} (h : Eliminated n p i w) (hi : i < n) :
    Eliminated n p (i + 1) (eliminationStep n w i) := by
  obtain ⟨hgo, hc, hy, hunit, hkernel⟩ := h
  obtain ⟨hzero, -⟩ | ⟨q, hle, hq, hne, hw⟩ := eliminationStep_cases (n := n) (i := i) hgo
  · exact absurd hkernel (not_trivialKernel_of_zeroColumn hunit hi hzero)
  · rw [matEntry_swapRows hc hi hq, Equiv.swap_apply_left] at hw
    rw [hw]
    refine ⟨rfl, hc.pivotStep hi hq, hy.pivotStep hi hq, unitColumns_pivotStep hc hunit hi hle hq hne, ?_⟩
    refine (trivialKernel_iff_of_pivoting
      (f := fun r => gfMul ((stepFactors w.c i q).getD r 0#8) (gfInv (matEntry w.c q i))) hi hq
      (gfInv_ne_zero _) (fun j _ => matEntry_pivotStep_self hc hi hq j) fun r hr hri j _ => ?_).2 hkernel
    rw [matEntry_pivotStep_of_ne hc hi hq hr hri, gfMul_assoc]

theorem eliminated_eliminationAfter {n p : Nat} {c y : List (List Byte)} (hc : MatShape n n c) (hy : MatShape n p y)
    (hkernel : TrivialKernel n c) {i : Nat} (hi : i ≤ n) : Eliminated n p i (eliminationAfter n c y i) := by
  induction i with
  | zero => exact ⟨rfl, hc, hy, fun _ _ j hj => absurd hj j.not_lt_zero, hkernel⟩
  | succ i ih =>
    rw [eliminationAfter_succ]
    exact (ih (by omega)).step hi

/-! ### The identity -/

theorem identityMatrix_shape (n : Nat) : MatShape n n (identityMatrix n) := by
  refine ⟨by rw [identityMatrix, List.length_map, List.length_range], fun row hrow => ?_⟩
  obtain ⟨k, -, rfl⟩ := List.mem_map.1 hrow
  rw [identityVector, List.length_map, List.length_range]

theorem matEntry_identityMatrix {n r j : Nat} (hr : r < n) (hj : j < n) :
    matEntry (identityMatrix n) r j = if r = j then 0x01#8 else 0x00#8 := by
  simp [matEntry, matRow, identityMatrix, identityVector, List.getD, hr, hj, eq_comm]

/-- R194 (a), (b): a matrix of full rank is eliminated to the identity without an abort. -/
theorem gaussJordan_of_full {n p : Nat} {c y : List (List Byte)} (hc : MatShape n n c) (hy : MatShape n p y)
    (hfull : rankOf n c = n) :
    (gaussJordan n c y).aborted = false ∧ (gaussJordan n c y).c = identityMatrix n ∧
      MatShape n p (gaussJordan n c y).y := by
  rw [gaussJordan_eq]
  have h := eliminated_eliminationAfter hc hy (trivialKernel_of_rankOf_eq hc hfull) le_rfl
  refine ⟨h.goesOn, h.shapeC.ext (identityMatrix_shape n) fun r hr j hj => ?_, h.shapeY⟩
  rw [h.unit r hr j hj, matEntry_identityMatrix hr hj]

end Sys2Proof.Machine
end

section

/-! ## The decoder invariant (10_state.md R47, 42_decoder.md R194) -/

namespace Sys2Proof.Machine

/-! ### Matrices in a byte space (20_memory.md R60) -/

/-- Distinct rows of a space lie apart: a byte of row r is in no other row's first `stride` bytes. -/
theorem row_index_apart {stride r r' j : Nat} (hj : j < stride) (hne : r ≠ r') :
    r * stride + j < r' * stride ∨ r' * stride + stride ≤ r * stride + j := by
  rcases Nat.lt_or_gt_of_ne hne with h | h
  · left
    calc r * stride + j < r * stride + stride := by omega
      _ = (r + 1) * stride := (Nat.succ_mul r stride).symm
      _ ≤ r' * stride := Nat.mul_le_mul_right stride h
  · right
    calc r' * stride + stride = (r' + 1) * stride := (Nat.succ_mul r' stride).symm
      _ ≤ r * stride := Nat.mul_le_mul_right stride h
      _ ≤ r * stride + j := Nat.le_add_right _ _

theorem read_writeRow_self {m : Memory} {stride r j : Nat} {bytes : List Byte} (hj : j < bytes.length) :
    (m.writeRow stride r bytes).read (r * stride + j) = bytes.getD j 0#8 := by
  rw [Memory.read_writeRow, if_pos (by omega), Nat.add_sub_cancel_left]

theorem read_writeRow_of_ne {m : Memory} {stride r r' j : Nat} {bytes : List Byte} (hlen : bytes.length ≤ stride)
    (hj : j < stride) (hne : r ≠ r') :
    (m.writeRow stride r' bytes).read (r * stride + j) = m.read (r * stride + j) := by
  have hapart := row_index_apart hj hne
  rw [Memory.read_writeRow, if_neg (by omega)]

/-- A row written into a matrix that a space holds replaces that row. -/
theorem matEntry_matrix_writeRow {m : Memory} {stride rows cols r r' j : Nat} {bytes : List Byte}
    (hlen : bytes.length = cols) (hcols : cols ≤ stride) (hr : r < rows) (hj : j < cols) :
    matEntry ((m.writeRow stride r' bytes).matrix stride rows cols) r j =
      if r = r' then bytes.getD j 0#8 else matEntry (m.matrix stride rows cols) r j := by
  rw [Memory.matrix_entry _ _ _ _ _ _ hr hj, Memory.matrix_entry _ _ _ _ _ _ hr hj]
  split
  case isTrue h => rw [h, read_writeRow_self (hlen ▸ hj)]
  case isFalse h => exact read_writeRow_of_ne (hlen ▸ hcols) (by omega) h

theorem read_writeRows {stride cols r₀ r j : Nat} {rows : List (List Byte)} (m : Memory)
    (hlen : ∀ row ∈ rows, row.length = cols) (hcols : cols ≤ stride) (hj : j < cols) :
    (m.writeRows stride r₀ rows).read (r * stride + j) =
      if r₀ ≤ r ∧ r < r₀ + rows.length then (rows.getD (r - r₀) []).getD j 0#8 else m.read (r * stride + j) := by
  induction rows generalizing m r₀ with
  | nil => rw [if_neg (by simp only [List.length_nil]; omega)]; rfl
  | cons row rest ih =>
    have hrow : row.length = cols := hlen row List.mem_cons_self
    rw [Memory.writeRows, ih _ fun row' h => hlen row' (List.mem_cons_of_mem _ h), List.length_cons]
    by_cases hr : r = r₀
    · rw [hr, if_neg (by omega), if_pos (by omega), read_writeRow_self (hrow ▸ hj), Nat.sub_self, List.getD_cons_zero]
    · rw [read_writeRow_of_ne (hrow ▸ hcols) (by omega) hr]
      by_cases hin : r₀ + 1 ≤ r ∧ r < r₀ + 1 + rest.length
      · rw [if_pos hin, if_pos (by omega), show r - r₀ = (r - (r₀ + 1)) + 1 by omega, List.getD_cons_succ]
      · rw [if_neg hin, if_neg (by omega)]

/-- A matrix written to a space row by row is read back. -/
theorem matrix_writeRows {stride rows cols : Nat} {w : List (List Byte)} (m : Memory) (h : MatShape rows cols w)
    (hcols : cols ≤ stride) : (m.writeRows stride 0 w).matrix stride rows cols = w := by
  refine (Memory.matrix_shape _ _ _ _).ext h fun r hr j hj => ?_
  rw [Memory.matrix_entry _ _ _ _ _ _ hr hj, read_writeRows m h.2 hcols hj, h.1, if_pos (by omega), Nat.sub_zero]
  rfl

theorem matRow_matrix {stride rows cols r : Nat} (m : Memory) (hr : r < rows) :
    matRow (m.matrix stride rows cols) r = m.row stride r cols := by
  simp [matRow, Memory.matrix, List.getD, hr]

theorem matrix_zero_entry {stride rows cols r j : Nat} (hr : r < rows) (hj : j < cols) :
    matEntry (Memory.zero.matrix stride rows cols) r j = 0#8 := by
  rw [Memory.matrix_entry _ _ _ _ _ _ hr hj, Memory.zero_read]

/-! ### The shapes of the stored matrices -/

theorem decMatrix_shape (s : State) : MatShape s.dec.n.toNat s.dec.n.toNat s.decMatrix := Memory.matrix_shape _ _ _ _

theorem decPayloads_shape (s : State) : MatShape s.dec.n.toNat s.dec.p.toNat s.decPayloads :=
  Memory.matrix_shape _ _ _ _

@[simp] theorem packetVector_length (n : Nat) (ibuf : Memory) : (packetVector n ibuf).length = n := by
  rw [packetVector, List.length_map, List.length_range]

/-! ### The invariant away from the packets -/

/-- The decoder invariant is about the DEC unit, CAP and ERR.SING only. -/
theorem DecInv.congr {s t : State} (h : DecInv s) (hdec : t.dec = s.dec) (hcap : t.cap = s.cap)
    (hsing : t.errSing = s.errSing) : DecInv t := by
  have hn : t.nMax = s.nMax := by rw [State.nMax, State.nMax, hcap]
  have hp : t.pMax = s.pMax := by rw [State.pMax, State.pMax, hcap]
  have hm : t.decMatrix = s.decMatrix := by rw [State.decMatrix, State.decMatrix, hdec, hn]
  have hy : t.decPayloads = s.decPayloads := by rw [State.decPayloads, State.decPayloads, hdec, hp]
  have hk (k : Nat) : t.decPacket k = s.decPacket k := by rw [State.decPacket, State.decPacket, hdec, hp]
  constructor <;> simp only [hdec, hn, hp, hm, hy, hk, hsing]
  exacts [h.unconfigured, h.nBound, h.pBound, h.rankRows, h.rowsBound, h.collecting, h.notDecodable, h.rankStored,
    h.emptyRows, h.decodedFull, h.decodedIdentity, h.decodedPackets, h.noSing]

/-- A COLLECTING decoder with no row populated, as reset, DEC_INIT and DEC_NEXT leave it. -/
theorem DecInv.of_empty {s : State} (hunconfigured : s.dec.n = 0#16 ↔ s.dec.p = 0#16) (hn : s.dec.n.toNat ≤ s.nMax)
    (hp : s.dec.p.toNat ≤ s.pMax) (hrows : s.dec.rows = 0) (hrank : s.dec.rank = 0)
    (hstate : s.dec.state = .collecting) (hzero : ZeroFrom s.dec.n.toNat 0 s.decMatrix) (hsing : s.errSing = false) :
    DecInv s where
  unconfigured := hunconfigured
  nBound := hn
  pBound := hp
  rankRows := by omega
  rowsBound := by omega
  collecting := by
    refine iff_of_true hstate ?_
    rw [hrank, ← BitVec.toNat_inj, BitVec.toNat_ofNat]
    omega
  notDecodable := by rw [hstate]; decide
  rankStored := fun _ =>
    hrank.trans (Nat.le_zero.1 (rankOf_le_of_zeroFrom (decMatrix_shape s) (Nat.zero_le _) hzero)).symm
  emptyRows := fun _ r hr _ => hzero r hr (Nat.zero_le r)
  decodedFull := fun h => absurd (hstate.symm.trans h) (by decide)
  decodedIdentity := fun h => absurd (hstate.symm.trans h) (by decide)
  decodedPackets := fun h => absurd (hstate.symm.trans h) (by decide)
  noSing := hsing

theorem decInv_afterReset (cap : Word) (epoch : Nat) : DecInv (State.afterReset cap epoch) :=
  .of_empty ⟨fun _ => rfl, fun _ => rfl⟩ (Nat.zero_le _) (Nat.zero_le _) rfl rfl rfl
    (fun r hr => absurd hr r.not_lt_zero) rfl

theorem decInv_resetCore (s : State) : DecInv (resetCore s) :=
  (decInv_afterReset s.cap (s.resets + 1)).congr rfl rfl rfl

theorem decInv_decInit {s : State} (h : DecInv s) : DecInv (decInit s) := by
  unfold decInit
  split
  case isTrue hlegal =>
    obtain ⟨hn0, hn, hp0, hp⟩ := (argLegal_iff s).1 hlegal
    exact .of_empty (iff_of_false hn0 hp0) hn hp rfl rfl rfl (fun r hr _ j hj => matrix_zero_entry hr hj) h.noSing
  case isFalse => exact h.congr rfl rfl rfl

theorem decInv_decNext {s : State} (h : DecInv s) : DecInv (decNext s) := by
  unfold decNext
  split
  case isTrue => exact h.congr rfl rfl rfl
  case isFalse =>
    exact .of_empty h.unconfigured h.nBound h.pBound rfl rfl rfl (fun r hr _ j hj => matrix_zero_entry hr hj) h.noSing

/-- In a state that meets the invariant DEC_GET has no decode to run (42_decoder.md R194, R196). -/
theorem lazyDecode_of_decInv {s : State} (h : DecInv s) : lazyDecode s = s := if_neg h.notDecodable

theorem decInv_decGet (idx : Nat) {s : State} (h : DecInv s) : DecInv (decGet idx s) := by
  unfold decGet decFetch
  rw [lazyDecode_of_decInv h]
  split_ifs <;> exact h.congr rfl rfl rfl

/-! ### An accepted packet -/

section
variable {s : State} (h : DecInv s)
include h

/-- The stored matrix with the packet in its first empty row (42_decoder.md R184). -/
theorem matEntry_storePacket {r j : Nat} (hr : r < s.dec.n.toNat) (hj : j < s.dec.n.toNat) :
    matEntry (storePacket s).decMatrix r j =
      if r = s.dec.rows then (packetVector s.dec.n.toNat s.ibuf).getD j 0#8 else matEntry s.decMatrix r j :=
  matEntry_matrix_writeRow (packetVector_length _ _) h.nBound hr hj

variable (hfree : s.dec.rows < s.dec.n.toNat)

theorem zeroFrom_storePacket (hstate : s.dec.state = .collecting) :
    ZeroFrom s.dec.n.toNat (s.dec.rows + 1) (storePacket s).decMatrix := by
  intro r hr hrows j hj
  rw [matEntry_storePacket h hr hj, if_neg (by omega)]
  exact h.emptyRows hstate r hr (by omega) j hj

include hfree

theorem rankOf_storePacket_le (hstate : s.dec.state = .collecting) :
    rankOf s.dec.n.toNat (storePacket s).decMatrix ≤ s.dec.rows + 1 :=
  rankOf_le_of_zeroFrom (decMatrix_shape (storePacket s)) hfree (zeroFrom_storePacket h hstate)

/-- A packet that leaves the rank below N keeps the decoder COLLECTING. -/
theorem decInv_updateRank (hstate : s.dec.state = .collecting)
    (hrank : rankOf s.dec.n.toNat (storePacket s).decMatrix ≠ s.dec.n.toNat) : DecInv (updateRank (storePacket s)) where
  unconfigured := h.unconfigured
  nBound := h.nBound
  pBound := h.pBound
  rankRows := rankOf_storePacket_le h hfree hstate
  rowsBound := hfree
  collecting := by
    have hle := rankOf_storePacket_le h hfree hstate
    exact iff_of_true hstate (.inl (Nat.lt_of_le_of_ne (hle.trans hfree) hrank))
  notDecodable := h.notDecodable
  rankStored := fun _ => rfl
  emptyRows := fun _ => zeroFrom_storePacket h hstate
  decodedFull := fun hd => absurd (hstate.symm.trans hd) (by decide)
  decodedIdentity := fun hd => absurd (hstate.symm.trans hd) (by decide)
  decodedPackets := fun hd => absurd (hstate.symm.trans hd) (by decide)
  noSing := h.noSing

end

/-! ### decode() at full rank -/

/-- R194: at full rank decode() ends in DECODED with the identity in dec.C and the rows of dec.Y as packets. -/
theorem decodeRun_of_full {s : State} (hn : s.dec.n.toNat ≤ s.nMax) (hp : s.dec.p.toNat ≤ s.pMax)
    (hfull : rankOf s.dec.n.toNat s.decMatrix = s.dec.n.toNat) :
    (decodeRun s).dec.state = .decoded ∧ (decodeRun s).errSing = s.errSing ∧
      (decodeRun s).decMatrix = identityMatrix s.dec.n.toNat ∧
      ∀ k < s.dec.n.toNat, (decodeRun s).decPacket k = matRow (decodeRun s).decPayloads k := by
  obtain ⟨hgo, hidentity, hy⟩ := gaussJordan_of_full (decMatrix_shape s) (decPayloads_shape s) hfull
  obtain ⟨habort, -⟩ | ⟨-, hrun⟩ := decodeRun_cases s
  · rw [hgo] at habort; exact absurd habort Bool.false_ne_true
  · rw [hrun]
    refine ⟨rfl, rfl, ?_, fun k hk => ?_⟩
    · exact (matrix_writeRows _ (hidentity ▸ identityMatrix_shape _) hn).trans hidentity
    · calc (s.dec.out.writeRows s.pMax 0 (gaussJordan s.dec.n.toNat s.decMatrix s.decPayloads).y).row s.pMax k
            s.dec.p.toNat
          = matRow (gaussJordan s.dec.n.toNat s.decMatrix s.decPayloads).y k := by
            rw [← matRow_matrix _ hk, matrix_writeRows _ hy hp]
        _ = matRow ((s.dec.y.writeRows s.pMax 0 (gaussJordan s.dec.n.toNat s.decMatrix s.decPayloads).y).matrix s.pMax
              s.dec.n.toNat s.dec.p.toNat) k := by rw [matrix_writeRows _ hy hp]

theorem decodeRun_cap (s : State) : (decodeRun s).cap = s.cap := by rw [decodeRun_frame]

/-- A DECODED decoder with all rows populated, the identity in dec.C and its payload rows as packets. -/
theorem DecInv.of_decoded {s : State} (hunconfigured : s.dec.n = 0#16 ↔ s.dec.p = 0#16) (hn0 : s.dec.n ≠ 0#16)
    (hn : s.dec.n.toNat ≤ s.nMax) (hp : s.dec.p.toNat ≤ s.pMax) (hrows : s.dec.rows = s.dec.n.toNat)
    (hrank : s.dec.rank = s.dec.n.toNat) (hstate : s.dec.state = .decoded)
    (hidentity : s.decMatrix = identityMatrix s.dec.n.toNat)
    (hpackets : ∀ k < s.dec.n.toNat, s.decPacket k = matRow s.decPayloads k) (hsing : s.errSing = false) : DecInv s where
  unconfigured := hunconfigured
  nBound := hn
  pBound := hp
  rankRows := hrank.trans_le hrows.ge
  rowsBound := hrows.le
  collecting := by
    refine iff_of_false (fun hc => absurd (hstate.symm.trans hc) (by decide)) ?_
    rw [hrank]
    exact not_or.2 ⟨Nat.lt_irrefl _, hn0⟩
  notDecodable := by rw [hstate]; decide
  rankStored := fun hc => absurd (hstate.symm.trans hc) (by decide)
  emptyRows := fun hc => absurd (hstate.symm.trans hc) (by decide)
  decodedFull := fun _ => ⟨hrank, hrows⟩
  decodedIdentity := fun _ => hidentity
  decodedPackets := fun _ => hpackets
  noSing := hsing

/-- A decoder whose rows are all populated and independent meets the invariant once decode() has run. -/
theorem decInv_decodeRun {s : State} (hunconfigured : s.dec.n = 0#16 ↔ s.dec.p = 0#16) (hn0 : s.dec.n ≠ 0#16)
    (hn : s.dec.n.toNat ≤ s.nMax) (hp : s.dec.p.toNat ≤ s.pMax) (hrows : s.dec.rows = s.dec.n.toNat)
    (hrank : s.dec.rank = s.dec.n.toNat) (hfull : rankOf s.dec.n.toNat s.decMatrix = s.dec.n.toNat)
    (hsing : s.errSing = false) : DecInv (decodeRun s) := by
  obtain ⟨hstate, hkeep, hidentity, hpackets⟩ := decodeRun_of_full hn hp hfull
  obtain ⟨hdn, hdp, -, hdrows, hdrank⟩ := decodeRun_dec s
  have hnMax : (decodeRun s).nMax = s.nMax := by rw [State.nMax, State.nMax, decodeRun_cap]
  have hpMax : (decodeRun s).pMax = s.pMax := by rw [State.pMax, State.pMax, decodeRun_cap]
  rw [← hdn] at hunconfigured hn0 hn hrows hrank hidentity hpackets
  rw [← hdp] at hunconfigured hp
  exact .of_decoded hunconfigured hn0 (hnMax.symm ▸ hn) (hpMax.symm ▸ hp) (hdrows.trans hrows) (hdrank.trans hrank)
    hstate hidentity hpackets (hkeep.trans hsing)

/-! ### The steps of the decoder -/

theorem decInv_acceptPacket {s : State} (h : DecInv s) (hn0 : s.dec.n ≠ 0#16) (hstate : s.dec.state = .collecting)
    (hfree : s.dec.rows < s.dec.n.toNat) : DecInv (acceptPacket s) := by
  unfold acceptPacket decodeAtFullRank
  split
  case isTrue hrank =>
    have hfull : rankOf s.dec.n.toNat (storePacket s).decMatrix = s.dec.n.toNat := hrank
    have hle := rankOf_storePacket_le h hfree hstate
    have hrows : s.dec.rows + 1 = s.dec.n.toNat := by omega
    exact decInv_decodeRun h.unconfigured hn0 h.nBound h.pBound hrows hrank hfull h.noSing
  case isFalse hrank => exact decInv_updateRank h hfree hstate hrank

theorem DecInv.collecting_of_ne_decoded {s : State} (h : DecInv s) (hstate : s.dec.state ≠ .decoded) :
    s.dec.state = .collecting := by
  have hne := h.notDecodable
  cases hs : s.dec.state with
  | collecting => rfl
  | decodable => exact absurd hs hne
  | decoded => exact absurd hs hstate

theorem decInv_decProcess {s : State} (h : DecInv s) : DecInv (decProcess s) := by
  unfold decProcess
  split_ifs with hn0 _ hstate _ _ _ hrows
  case neg =>
    have hfree := Nat.lt_of_le_of_ne h.rowsBound hrows
    exact (decInv_acceptPacket h hn0 (h.collecting_of_ne_decoded hstate) hfree).congr rfl rfl rfl
  all_goals exact h.congr rfl rfl rfl

/-- Every command keeps the decoder invariant; all but four leave the DEC unit and ERR.SING alone. -/
theorem decInv_effect (i : Instr) {s : State} (h : DecInv s) : DecInv (effect i s) := by
  cases i with
  | decInit => exact decInv_decInit h
  | decProcess => exact decInv_decProcess h
  | decGet idx => exact decInv_decGet idx h
  | decNext => exact decInv_decNext h
  | _ =>
    exact h.congr (exec_dec (exec_eq_next_effect _ s) rfl) (exec_cap (exec_eq_next_effect _ s))
      (exec_errSing (exec_eq_next_effect _ s) rfl)

/-- Settles O55: an accepted packet either leaves the rank below N, or completes it and is decoded without an abort; no
other event can break the invariant. -/
theorem stepKeepsTheDecoderInvariant : Obligations.StepKeepsTheDecoderInvariant := fun _ _ hs ht =>
  step_keeps (Inv := DecInv) (fun _ _ _ _ _ h => h.congr rfl rfl rfl) (fun _ _ _ h _ => h.congr rfl rfl rfl)
    (fun _ h => h.congr rfl rfl rfl) (fun _ _ => decInv_resetCore _) (fun i _ h => decInv_effect i h) hs ht

/-! ### The reset state -/

theorem statusInv_reset : StatusInv State.reset where
  code := Status.code_mem .ok
  result := fun _ => rfl

theorem inSpace_unspecified (epoch : Nat) (space : Space) (size : Nat) :
    InSpace (Memory.unspecified epoch space) size :=
  ⟨Memory.unspecified_wf epoch space, fun _ hcell => absurd hcell List.not_mem_nil⟩

theorem spacesInv_reset : SpacesInv State.reset where
  encN := Nat.zero_le _
  encP := Nat.zero_le _
  decN := Nat.zero_le _
  decP := Nat.zero_le _
  decRows := Nat.zero_le _
  ibuf := inSpace_unspecified ..
  obuf := inSpace_unspecified ..
  encBuf := inSpace_unspecified ..
  decC := inSpace_unspecified ..
  decY := inSpace_unspecified ..
  decOut := inSpace_unspecified ..

/-- Settles O58: the base case of the four invariants. -/
theorem resetMeetsEveryInvariant : Obligations.ResetMeetsEveryInvariant :=
  ⟨encInv_afterReset _ _, decInv_afterReset _ _, statusInv_reset, spacesInv_reset⟩

end Sys2Proof.Machine
end

section

/-! ## The spaces invariant (20_memory.md R60, R64)

A write inside a space keeps it canonical and within its size. `spacesInv_iff` takes the invariant apart by owner (ENC
unit, DEC unit, IBUF, OBUF), and a command is followed through each owner alone. -/

namespace Sys2Proof.Machine

/-! ### Writes inside a space -/

theorem inSpace_zero (size : Nat) : InSpace Memory.zero size :=
  ⟨Memory.zero_wf, fun _ hcell => absurd hcell List.not_mem_nil⟩

/-- A listed cell of a written space is the one written, or was listed before. -/
theorem mem_cells_write {m : Memory} {a : Nat} {b : Byte} {cell : Host.Cell} (h : cell ∈ (m.write a b).cells) :
    cell = (a, b) ∨ cell ∈ m.cells := by
  unfold Memory.write at h
  split at h
  case isTrue => exact .inr (cellsDrop_mem h)
  case isFalse => exact cellsPut_mem h

theorem InSpace.write {m : Memory} {size a : Nat} (h : InSpace m size) (ha : a < size) (b : Byte) :
    InSpace (m.write a b) size := by
  obtain ⟨hwf, hcells⟩ := h
  refine ⟨Memory.write_wf a b hwf, fun cell hcell => ?_⟩
  obtain rfl | hold := mem_cells_write hcell
  · exact ha
  · exact hcells cell hold

theorem InSpace.writeBytes {m : Memory} {size a : Nat} {bytes : List Byte} (h : InSpace m size)
    (hfit : a + bytes.length ≤ size) : InSpace (m.writeBytes a bytes) size := by
  induction bytes generalizing m a with
  | nil => exact h
  | cons b rest ih =>
    rw [List.length_cons] at hfit
    exact ih (h.write (by omega) b) (by omega)

theorem InSpace.writeRow {m : Memory} {rows stride r : Nat} {bytes : List Byte} (h : InSpace m (rows * stride))
    (hr : r < rows) (hlen : bytes.length ≤ stride) : InSpace (m.writeRow stride r bytes) (rows * stride) := by
  refine h.writeBytes ?_
  calc r * stride + bytes.length ≤ r * stride + stride := Nat.add_le_add_left hlen _
    _ = (r + 1) * stride := (Nat.succ_mul r stride).symm
    _ ≤ rows * stride := Nat.mul_le_mul_right stride hr

theorem InSpace.writeRows {m : Memory} {rows stride r : Nat} {w : List (List Byte)} (h : InSpace m (rows * stride))
    (hr : r + w.length ≤ rows) (hlen : ∀ row ∈ w, row.length ≤ stride) :
    InSpace (m.writeRows stride r w) (rows * stride) := by
  induction w generalizing m r with
  | nil => exact h
  | cons row rest ih =>
    rw [List.length_cons] at hr
    obtain ⟨hrow, hrest⟩ := List.forall_mem_cons.1 hlen
    exact ih (h.writeRow (by omega) hrow) (by omega) hrest

/-- A matrix that fits is written from row 0. -/
theorem InSpace.writeMatrix {m : Memory} {rows stride n cols : Nat} {w : List (List Byte)}
    (h : InSpace m (rows * stride)) (hw : MatShape n cols w) (hn : n ≤ rows) (hcols : cols ≤ stride) :
    InSpace (m.writeRows stride 0 w) (rows * stride) := by
  obtain ⟨hlen, hrow⟩ := hw
  refine h.writeRows (by omega) fun row hmem => ?_
  rw [hrow row hmem]
  exact hcols

/-! ### The shape of decode()'s matrices, aborted or not -/

theorem eliminationStep_shape {n p i : Nat} {w : Elimination} (hc : MatShape n n w.c) (hy : MatShape n p w.y)
    (hi : i < n) : MatShape n n (eliminationStep n w i).c ∧ MatShape n p (eliminationStep n w i).y := by
  cases hw : w.aborted with
  | true =>
    rw [eliminationStep, if_pos hw]
    exact ⟨hc, hy⟩
  | false =>
    obtain ⟨-, habort⟩ | ⟨q, -, hq, -, hpivot⟩ := eliminationStep_cases (n := n) (i := i) hw
    · rw [habort]
      exact ⟨hc, hy⟩
    · rw [hpivot]
      exact ⟨hc.pivotStep hi hq, hy.pivotStep hi hq⟩

theorem eliminationAfter_shape {n p i : Nat} {c y : List (List Byte)} (hc : MatShape n n c) (hy : MatShape n p y)
    (hi : i ≤ n) : MatShape n n (eliminationAfter n c y i).c ∧ MatShape n p (eliminationAfter n c y i).y := by
  induction i with
  | zero => exact ⟨hc, hy⟩
  | succ i ih =>
    obtain ⟨ihc, ihy⟩ := ih (by omega)
    rw [eliminationAfter_succ]
    exact eliminationStep_shape ihc ihy hi

theorem gaussJordan_shape {n p : Nat} {c y : List (List Byte)} (hc : MatShape n n c) (hy : MatShape n p y) :
    MatShape n n (gaussJordan n c y).c ∧ MatShape n p (gaussJordan n c y).y :=
  eliminationAfter_shape hc hy le_rfl

/-! ### The invariant by owner -/

/-- The ENC unit's part of the spaces invariant, for the sizes N_MAX and P_MAX. -/
structure EncSpaces (nMax pMax : Nat) (e : EncUnit) : Prop where
  n : e.n.toNat ≤ nMax
  p : e.p.toNat ≤ pMax
  buf : InSpace e.buf (nMax * pMax)

/-- The DEC unit's part of the spaces invariant, for the sizes N_MAX and P_MAX. -/
structure DecSpaces (nMax pMax : Nat) (d : DecUnit) : Prop where
  n : d.n.toNat ≤ nMax
  p : d.p.toNat ≤ pMax
  rows : d.rows ≤ d.n.toNat
  c : InSpace d.c (nMax * nMax)
  y : InSpace d.y (nMax * pMax)
  out : InSpace d.out (nMax * pMax)

theorem spacesInv_iff (s : State) :
    SpacesInv s ↔ EncSpaces s.nMax s.pMax s.enc ∧ DecSpaces s.nMax s.pMax s.dec ∧ InSpace s.ibuf s.bufCap ∧
      InSpace s.obuf s.bufCap := by
  constructor
  · intro h
    exact ⟨⟨h.encN, h.encP, h.encBuf⟩, ⟨h.decN, h.decP, h.decRows, h.decC, h.decY, h.decOut⟩, h.ibuf, h.obuf⟩
  · rintro ⟨henc, hdec, hibuf, hobuf⟩
    exact ⟨henc.n, henc.p, hdec.n, hdec.p, hdec.rows, hibuf, hobuf, henc.buf, hdec.c, hdec.y, hdec.out⟩

theorem sizes_eq_of_cap_eq {s t : State} (h : t.cap = s.cap) :
    t.nMax = s.nMax ∧ t.pMax = s.pMax ∧ t.bufCap = s.bufCap := by
  have hn : t.nMax = s.nMax := by rw [State.nMax, h, State.nMax]
  have hp : t.pMax = s.pMax := by rw [State.pMax, h, State.pMax]
  exact ⟨hn, hp, by rw [State.bufCap, hn, hp, State.bufCap]⟩

/-- The spaces invariant is about CAP, the units and the two buffers only. -/
theorem SpacesInv.congr {s t : State} (h : SpacesInv s) (hcap : t.cap = s.cap) (henc : t.enc = s.enc)
    (hdec : t.dec = s.dec) (hibuf : t.ibuf = s.ibuf) (hobuf : t.obuf = s.obuf) : SpacesInv t := by
  obtain ⟨hn, hp, hbuf⟩ := sizes_eq_of_cap_eq hcap
  rw [spacesInv_iff, hn, hp, hbuf, henc, hdec, hibuf, hobuf]
  exact (spacesInv_iff s).1 h

/-! ### The ENC unit -/

theorem encSpaces_encInit {s : State} (h : EncSpaces s.nMax s.pMax s.enc) :
    EncSpaces s.nMax s.pMax (encInit s).enc := by
  unfold encInit
  split
  case isTrue hlegal =>
    obtain ⟨-, hn, -, hp⟩ := (argLegal_iff s).1 hlegal
    exact ⟨hn, hp, inSpace_zero _⟩
  case isFalse => exact h

@[simp] theorem normPayload_length (p len : Nat) (ibuf : Memory) : (normPayload p len ibuf).length = p := by
  rw [normPayload, List.length_map, List.length_range]

theorem encSpaces_encAdd (idx : Nat) {s : State} (h : EncSpaces s.nMax s.pMax s.enc) :
    EncSpaces s.nMax s.pMax (encAdd idx s).enc := by
  obtain ⟨hn, hp, hbuf⟩ := h
  unfold encAdd
  split_ifs with _ _ _ hidx
  case neg => exact ⟨hn, hp, hbuf.writeRow (by omega) (by rw [normPayload_length]; exact hp)⟩
  all_goals exact ⟨hn, hp, hbuf⟩

theorem encSpaces_encNext {s : State} (h : EncSpaces s.nMax s.pMax s.enc) :
    EncSpaces s.nMax s.pMax (encNext s).enc := by
  unfold encNext
  split
  case isTrue => exact h
  case isFalse => exact ⟨h.n, h.p, inSpace_zero _⟩

theorem encSpaces_effect (i : Instr) {s : State} (h : EncSpaces s.nMax s.pMax s.enc) :
    EncSpaces s.nMax s.pMax (effect i s).enc := by
  cases i with
  | encInit => exact encSpaces_encInit h
  | encAdd idx => exact encSpaces_encAdd idx h
  | encNext => exact encSpaces_encNext h
  | _ => rw [exec_enc (exec_eq_next_effect _ s) rfl]; exact h

/-! ### The DEC unit -/

theorem decSpaces_decInit {s : State} (h : DecSpaces s.nMax s.pMax s.dec) :
    DecSpaces s.nMax s.pMax (decInit s).dec := by
  unfold decInit
  split
  case isTrue hlegal =>
    obtain ⟨-, hn, -, hp⟩ := (argLegal_iff s).1 hlegal
    exact ⟨hn, hp, Nat.zero_le _, inSpace_zero _, inSpace_zero _, inSpace_zero _⟩
  case isFalse => exact h

theorem decSpaces_decNext {s : State} (h : DecSpaces s.nMax s.pMax s.dec) :
    DecSpaces s.nMax s.pMax (decNext s).dec := by
  unfold decNext
  split
  case isTrue => exact h
  case isFalse => exact ⟨h.n, h.p, Nat.zero_le _, inSpace_zero _, inSpace_zero _, inSpace_zero _⟩

/-- decode() writes dec.N rows of each matrix, also when it aborts (42_decoder.md R192, R193). -/
theorem decSpaces_decodeRun {s : State} (h : DecSpaces s.nMax s.pMax s.dec) :
    DecSpaces s.nMax s.pMax (decodeRun s).dec := by
  obtain ⟨hn, hp, hrows, hc, hy, hout⟩ := h
  obtain ⟨hwc, hwy⟩ := gaussJordan_shape (decMatrix_shape s) (decPayloads_shape s)
  have hc' := hc.writeMatrix hwc hn hn
  have hy' := hy.writeMatrix hwy hn hp
  obtain ⟨-, hrun⟩ | ⟨-, hrun⟩ := decodeRun_cases s
  · rw [hrun]
    exact ⟨hn, hp, hrows, hc', hy', hout⟩
  · rw [hrun]
    exact ⟨hn, hp, hrows, hc', hy', hout.writeMatrix hwy hn hp⟩

@[simp] theorem packetPayload_length (n p : Nat) (ibuf : Memory) : (packetPayload n p ibuf).length = p :=
  Memory.readBytes_length _ _ _

theorem decSpaces_storePacket {s : State} (h : DecSpaces s.nMax s.pMax s.dec) (hfree : s.dec.rows < s.dec.n.toNat) :
    DecSpaces s.nMax s.pMax (storePacket s).dec where
  n := h.n
  p := h.p
  rows := hfree
  c := h.c.writeRow (Nat.lt_of_lt_of_le hfree h.n) (by rw [packetVector_length]; exact h.n)
  y := h.y.writeRow (Nat.lt_of_lt_of_le hfree h.n) (by rw [packetPayload_length]; exact h.p)
  out := h.out

theorem decSpaces_acceptPacket {s : State} (h : DecSpaces s.nMax s.pMax s.dec)
    (hfree : s.dec.rows < s.dec.n.toNat) : DecSpaces s.nMax s.pMax (acceptPacket s).dec := by
  obtain ⟨hn, hp, hrows, hc, hy, hout⟩ := decSpaces_storePacket h hfree
  unfold acceptPacket decodeAtFullRank
  split
  case isTrue =>
    exact decSpaces_decodeRun
      (s := { updateRank (storePacket s) with dec := { (updateRank (storePacket s)).dec with state := .decodable } })
      ⟨hn, hp, hrows, hc, hy, hout⟩
  case isFalse => exact ⟨hn, hp, hrows, hc, hy, hout⟩

theorem decSpaces_decProcess {s : State} (h : DecSpaces s.nMax s.pMax s.dec) :
    DecSpaces s.nMax s.pMax (decProcess s).dec := by
  unfold decProcess
  split_ifs with _ _ _ _ _ _ hrows
  case neg => exact decSpaces_acceptPacket h (Nat.lt_of_le_of_ne h.rows hrows)
  all_goals exact h

theorem decSpaces_lazyDecode {s : State} (h : DecSpaces s.nMax s.pMax s.dec) :
    DecSpaces s.nMax s.pMax (lazyDecode s).dec := by
  unfold lazyDecode
  split
  case isTrue => exact decSpaces_decodeRun h
  case isFalse => exact h

/-- After its lazy decode DEC_GET leaves the DEC unit alone (42_decoder.md R197). -/
theorem decFetch_dec (idx : Nat) (s : State) : (decFetch idx s).dec = s.dec := by
  unfold decFetch
  split_ifs <;> rfl

theorem decSpaces_decGet (idx : Nat) {s : State} (h : DecSpaces s.nMax s.pMax s.dec) :
    DecSpaces s.nMax s.pMax (decGet idx s).dec := by
  unfold decGet
  split
  case isTrue => exact h
  case isFalse => rw [decFetch_dec]; exact decSpaces_lazyDecode h

theorem decSpaces_effect (i : Instr) {s : State} (h : DecSpaces s.nMax s.pMax s.dec) :
    DecSpaces s.nMax s.pMax (effect i s).dec := by
  cases i with
  | decInit => exact decSpaces_decInit h
  | decProcess => exact decSpaces_decProcess h
  | decGet idx => exact decSpaces_decGet idx h
  | decNext => exact decSpaces_decNext h
  | _ => rw [exec_dec (exec_eq_next_effect _ s) rfl]; exact h

/-! ### OBUF -/

/-- A packet of the configured sizes, header included, is at most BUF_CAP bytes long (00_scope.md R6). -/
theorem inSpace_emit {s : State} {c y : List Byte} (h : SpacesInv s) (hc : c.length = s.enc.n.toNat)
    (hy : y.length = s.enc.p.toNat) : InSpace (emit c y s).obuf s.bufCap := by
  have hn := h.encN
  have hp := h.encP
  refine h.obuf.writeBytes ?_
  rw [packetBytes_eq, List.length_append, List.length_append, headerBytes_length, hc, hy, State.bufCap]
  omega

@[simp] theorem identityVector_length (n k : Nat) : (identityVector n k).length = n := by
  rw [identityVector, List.length_map, List.length_range]

theorem inSpace_encGenCoded (r : List Byte) {s : State} (h : SpacesInv s) :
    InSpace (encGenCoded r s).obuf s.bufCap := by
  unfold encGenCoded
  split_ifs
  case neg =>
    dsimp only [ok_obuf]
    exact inSpace_emit h (codingVector_length _ _) (codedPayload_length _ _)
  all_goals exact h.obuf

theorem inSpace_encGenUncoded (idx : Nat) {s : State} (h : SpacesInv s) :
    InSpace (encGenUncoded idx s).obuf s.bufCap := by
  unfold encGenUncoded
  split_ifs
  case neg =>
    rw [ok_obuf]
    exact inSpace_emit h (identityVector_length _ _) (Memory.row_length _ _ _ _)
  all_goals exact h.obuf

theorem inSpace_decFetch (idx : Nat) {s : State} (hobuf : InSpace s.obuf s.bufCap) (hp : s.dec.p.toNat ≤ s.pMax) :
    InSpace (decFetch idx s).obuf s.bufCap := by
  unfold decFetch
  split_ifs
  case neg =>
    refine hobuf.writeBytes ?_
    rw [State.decPacket, Memory.row_length, State.bufCap]
    omega
  all_goals exact hobuf

theorem inSpace_decGet (idx : Nat) {s : State} (h : SpacesInv s) : InSpace (decGet idx s).obuf s.bufCap := by
  have hlazy := (decSpaces_lazyDecode ((spacesInv_iff s).1 h).2.1).p
  unfold decGet
  split
  case isTrue => exact h.obuf
  case isFalse =>
    rw [lazyDecode_frame]
    exact inSpace_decFetch idx (s := { s with dec := (lazyDecode s).dec, errSing := (lazyDecode s).errSing }) h.obuf
      hlazy

theorem inSpace_obuf_effect (i : Instr) {s : State} (h : SpacesInv s) : InSpace (effect i s).obuf s.bufCap := by
  cases i with
  | encGenCoded => exact inSpace_encGenCoded _ h
  | encGenUncoded idx => exact inSpace_encGenUncoded idx h
  | decGet idx => exact inSpace_decGet idx h
  | _ => rw [(exec_output (exec_eq_next_effect _ s) rfl).2]; exact h.obuf

/-! ### Steps -/

theorem spacesInv_resetCore (s : State) : SpacesInv (resetCore s) :=
  (spacesInv_iff _).2
    ⟨⟨Nat.zero_le _, Nat.zero_le _, inSpace_unspecified ..⟩,
      ⟨Nat.zero_le _, Nat.zero_le _, Nat.zero_le _, inSpace_unspecified .., inSpace_unspecified ..,
        inSpace_unspecified ..⟩,
      inSpace_unspecified .., inSpace_unspecified ..⟩

/-- Every command keeps the spaces invariant: IBUF and CAP are outside its footprint, the other owners one by one. -/
theorem spacesInv_effect (i : Instr) {s : State} (h : SpacesInv s) : SpacesInv (effect i s) := by
  have hibuf : (effect i s).ibuf = s.ibuf := (congrArg State.ibuf (effect_footprint i s)).symm
  obtain ⟨hn, hp, hbuf⟩ := sizes_eq_of_cap_eq (exec_cap (exec_eq_next_effect i s))
  obtain ⟨henc, hdec, -, -⟩ := (spacesInv_iff s).1 h
  rw [spacesInv_iff, hn, hp, hbuf, hibuf]
  exact ⟨encSpaces_effect i henc, decSpaces_effect i hdec, h.ibuf, inSpace_obuf_effect i h⟩

/-- Settles O57: the host writes IBUF below BUF_CAP only, reset lists no cell, and every command's writes stay inside
their spaces. -/
theorem stepKeepsTheSpacesCanonical : Obligations.StepKeepsTheSpacesCanonical := fun _ _ hs ht =>
  step_keeps (Inv := SpacesInv) (fun _ _ _ _ _ h => h.congr rfl rfl rfl rfl rfl)
    (fun _ _ b h hi => { h with ibuf := h.ibuf.write hi b }) (fun _ h => h.congr rfl rfl rfl rfl rfl)
    (fun _ _ => spacesInv_resetCore _) (fun i _ h => spacesInv_effect i h) hs ht

end Sys2Proof.Machine
end

section

/-! ## The header fields as numbers (20_memory.md R65, R66, R68) -/

namespace Sys2Proof.Machine

/-- A byte appended at the low end is the last digit to base 256. -/
theorem toNat_append_byte {w : Nat} (v : BitVec w) (b : Byte) : (v ++ b).toNat = v.toNat * 256 + b.toNat := by
  rw [BitVec.toNat_append, ← Nat.shiftLeft_add_eq_or_of_lt b.isLt, Nat.shiftLeft_eq]

theorem be16_toNat (m : Memory) (a : Nat) : (be16 m a).toNat = (m.read a).toNat * 256 + (m.read (a + 1)).toNat :=
  toNat_append_byte _ _

theorem be32_toNat (m : Memory) (a : Nat) :
    (be32 m a).toNat =
      (m.read a).toNat * 2 ^ 24 + (m.read (a + 1)).toNat * 2 ^ 16 + (m.read (a + 2)).toNat * 2 ^ 8 +
        (m.read (a + 3)).toNat := by
  rw [be32, toNat_append_byte, toNat_append_byte, toNat_append_byte]
  omega

/-- Settles O38: the three fields are `be32` and `be16` at their offsets. -/
theorem headerFieldsAreBigEndian : Obligations.HeaderFieldsAreBigEndian :=
  fun m => ⟨be32_toNat m 0, be16_toNat m 4, be16_toNat m 6⟩

end Sys2Proof.Machine
end

section

/-! ## ENC and DEC commands commute on the units (20_memory.md R71)

What a command does to its own unit depends on that unit and on ARG, ILEN, CAP and IBUF only. The other unit's commands
change none of these, so they may come before or after. -/

namespace Sys2Proof.Machine

/-! ### A DEC command reads the DEC unit, ARG, ILEN, CAP and IBUF only -/

/-- The state t with the DEC unit, ARG, ILEN, CAP and IBUF of s. -/
def withDecInputs (s t : State) : State :=
  { t with arg := s.arg, ilen := s.ilen, cap := s.cap, ibuf := s.ibuf, dec := s.dec }

theorem effect_eq_withDecInputs {i : Instr} (hi : changesDecoder i = false) (s : State) :
    effect i s = withDecInputs s (effect i s) := by
  have h := effect_footprint i s
  simp only [footprint, hi] at h
  rw [← h]
  rfl

theorem decodeRun_dec_withDecInputs (s t : State) : (decodeRun (withDecInputs s t)).dec = (decodeRun s).dec := by
  unfold decodeRun
  dsimp only
  rw [apply_ite State.dec, apply_ite State.dec]
  rfl

theorem decodeAtFullRank_dec_withDecInputs (s t : State) :
    (decodeAtFullRank (withDecInputs s t)).dec = (decodeAtFullRank s).dec := by
  have hrun := decodeRun_dec_withDecInputs { s with dec := { s.dec with state := .decodable } } t
  simp only [decodeAtFullRank, apply_ite State.dec, ← hrun]
  rfl

theorem acceptPacket_dec_withDecInputs (s t : State) :
    (acceptPacket (withDecInputs s t)).dec = (acceptPacket s).dec :=
  decodeAtFullRank_dec_withDecInputs (updateRank (storePacket s)) t

theorem decProcess_dec_withDecInputs (s t : State) :
    (decProcess (withDecInputs s t)).dec = (decProcess s).dec := by
  simp only [decProcess, apply_ite State.dec, ok_dec, fail_dec, acceptPacket_dec_withDecInputs]
  rfl

theorem decInit_dec_withDecInputs (s t : State) : (decInit (withDecInputs s t)).dec = (decInit s).dec := by
  simp only [decInit, apply_ite State.dec]
  rfl

theorem decNext_dec_withDecInputs (s t : State) : (decNext (withDecInputs s t)).dec = (decNext s).dec := by
  simp only [decNext, apply_ite State.dec]
  rfl

theorem decGet_dec_withDecInputs (idx : Nat) (s t : State) :
    (decGet idx (withDecInputs s t)).dec = (decGet idx s).dec := by
  simp only [decGet, lazyDecode, apply_ite State.dec, decFetch_dec, decodeRun_dec_withDecInputs]
  rfl

theorem effect_dec_withDecInputs (j : Instr) (s t : State) : (effect j (withDecInputs s t)).dec = (effect j s).dec := by
  cases j with
  | decInit => exact decInit_dec_withDecInputs s t
  | decProcess => exact decProcess_dec_withDecInputs s t
  | decGet idx => exact decGet_dec_withDecInputs idx s t
  | decNext => exact decNext_dec_withDecInputs s t
  | _ => rw [exec_dec (exec_eq_next_effect _ _) rfl, exec_dec (exec_eq_next_effect _ _) rfl]; rfl

/-! ### An ENC command reads the ENC unit, ARG, ILEN, CAP and IBUF only -/

/-- The state t with the ENC unit, ARG, ILEN, CAP and IBUF of s. -/
def withEncInputs (s t : State) : State :=
  { t with arg := s.arg, ilen := s.ilen, cap := s.cap, ibuf := s.ibuf, enc := s.enc }

theorem effect_eq_withEncInputs {j : Instr} (hj : changesEncoder j = false) (s : State) :
    effect j s = withEncInputs s (effect j s) := by
  have h := effect_footprint j s
  simp only [footprint, hj] at h
  rw [← h]
  rfl

theorem effect_enc_withEncInputs (i : Instr) (s t : State) : (effect i (withEncInputs s t)).enc = (effect i s).enc := by
  cases i with
  | encInit => simp only [effect, encInit, apply_ite State.enc]; rfl
  | encAdd idx => simp only [effect, encAdd, apply_ite State.enc]; rfl
  | encNext => simp only [effect, encNext, apply_ite State.enc]; rfl
  | _ => rw [exec_enc (exec_eq_next_effect _ _) rfl, exec_enc (exec_eq_next_effect _ _) rfl]; rfl

/-! ### The exchange -/

theorem changesDecoder_of_isEncCommand {i : Instr} (hi : isEncCommand i = true) : changesDecoder i = false := by
  cases i with
  | decInit | decProcess | decGet | decNext => exact absurd hi Bool.false_ne_true
  | _ => rfl

theorem changesEncoder_of_isDecCommand {j : Instr} (hj : isDecCommand j = true) : changesEncoder j = false := by
  cases j with
  | encInit | encAdd | encNext => exact absurd hj Bool.false_ne_true
  | _ => rfl

theorem effect_dec_effect {i : Instr} (hi : changesDecoder i = false) (j : Instr) (s : State) :
    (effect j (effect i s)).dec = (effect j s).dec := by
  rw [effect_eq_withDecInputs hi, effect_dec_withDecInputs]

theorem effect_enc_effect {j : Instr} (hj : changesEncoder j = false) (i : Instr) (s : State) :
    (effect i (effect j s)).enc = (effect i s).enc := by
  rw [effect_eq_withEncInputs hj, effect_enc_withEncInputs]

/-- Settles O36: each unit sees only its own command, whichever of the two runs first. -/
theorem encAndDecCommandsCommuteOnUnits : Obligations.EncAndDecCommandsCommuteOnUnits := by
  intro i j s s1 s2 s3 s4 hi hj h1 h2 h3 h4
  have hi' := changesDecoder_of_isEncCommand hi
  have hj' := changesEncoder_of_isDecCommand hj
  rw [exec_eq_next_iff] at h1 h3
  subst h1 h3
  constructor
  · calc s2.enc = (effect i s).enc := exec_enc h2 hj'
      _ = (effect i (effect j s)).enc := (effect_enc_effect hj' i s).symm
      _ = s4.enc := by rw [(exec_eq_next_iff ..).1 h4]
  · calc s2.dec = (effect j (effect i s)).dec := by rw [(exec_eq_next_iff ..).1 h2]
      _ = (effect j s).dec := effect_dec_effect hi' j s
      _ = s4.dec := (exec_dec h4 hi').symm

end Sys2Proof.Machine
end

section

/-! ## Command words (30_encoding.md R91 to R96)

Each row of the opcode map fixes all of bits [31:24] to its opcode, and the opcodes differ. So a word decodes to i
exactly when it matches a row and i is that row's command, which is R93's reading of match and mask. -/

namespace Sys2Proof

/-! ### The rows of the opcode map -/

/-- The command a row selects from the operand fields of a word (30_encoding.md R92, R95). -/
def OpcodeRow.command (row : OpcodeRow) (w : Word) : Instr := row.build (aField w) (bField w) (idxField w)

/-- Where the mask is all ones, a matching word has the bits of the match. -/
theorem extractLsb'_eq_of_masked {w mask pattern : Word} {start len : Nat} (h : w &&& mask = pattern)
    (hmask : mask.extractLsb' start len = BitVec.allOnes len) :
    w.extractLsb' start len = pattern.extractLsb' start len := by
  rw [← h, BitVec.extractLsb'_and, hmask, BitVec.and_allOnes]

/-- The table of the decoder is R93's. -/
theorem opcodeRows_patterns : opcodeRows.map (fun row => (row.pattern, row.mask)) = commandPatterns := rfl

/-- R94: a row fixes all of bits [31:24], to its opcode. -/
theorem opcodeRows_fixOpcode :
    ∀ row ∈ opcodeRows, row.mask.extractLsb' 24 8 = 0xFF#8 ∧ row.pattern.extractLsb' 24 8 = row.op := by decide

/-- R94: the opcodes differ. -/
theorem opcodeRows_op_pairwise : opcodeRows.Pairwise fun p q => p.op ≠ q.op := by decide

theorem opcodeRows_eq_of_op {p q : OpcodeRow} (hp : p ∈ opcodeRows) (hq : q ∈ opcodeRows) (h : p.op = q.op) : p = q :=
  List.inj_on_of_nodup_map (List.pairwise_map.2 opcodeRows_op_pairwise) hp hq h

/-- A word that matches a row has the row's opcode. -/
theorem opField_of_matches {row : OpcodeRow} {w : Word} (hrow : row ∈ opcodeRows) (h : w &&& row.mask = row.pattern) :
    opField w = row.op := by
  obtain ⟨hmask, hpattern⟩ := opcodeRows_fixOpcode row hrow
  exact (extractLsb'_eq_of_masked h hmask).trans hpattern

/-- Settles O4: two rows that one word matches would share its opcode. -/
theorem noWordMatchesTwoRows : Obligations.NoWordMatchesTwoRows := by
  refine ⟨opcodeRows_patterns, ?_, opcodeRows_fixOpcode, opcodeRows_op_pairwise⟩
  refine opcodeRows_op_pairwise.imp_of_mem fun hp hq hne w ⟨hwp, hwq⟩ => hne ?_
  rw [← opField_of_matches hp hwp, ← opField_of_matches hq hwq]

/-! ### The decoder -/

/-- R95: the opcode selects the row; its mask then tells a command from an illegal word. -/
theorem decode_of_op {row : OpcodeRow} {w : Word} (hrow : row ∈ opcodeRows) (hop : opField w = row.op) :
    decode w = if w &&& row.mask = row.pattern then .ok (row.command w) else .error .reservedNotZero := by
  have hfind : opcodeRows.find? (fun r => r.op == opField w) = some row := by
    cases h : opcodeRows.find? (fun r => r.op == opField w) with
    | none => exact absurd (beq_iff_eq.2 hop.symm) (List.find?_eq_none.1 h row hrow)
    | some r =>
      have hr : r.op = opField w := by simpa using List.find?_some h
      rw [opcodeRows_eq_of_op (List.mem_of_find?_eq_some h) hrow (hr.trans hop)]
  rw [decode, hfind]
  rfl

theorem decode_of_matches {row : OpcodeRow} {w : Word} (hrow : row ∈ opcodeRows) (h : w &&& row.mask = row.pattern) :
    decode w = .ok (row.command w) := by
  rw [decode_of_op hrow (opField_of_matches hrow h), if_pos h]

/-- A word with a row's opcode that the row does not match is illegal (30_encoding.md R96). -/
theorem decode_of_not_matches {row : OpcodeRow} {w : Word} (hrow : row ∈ opcodeRows) (hop : opField w = row.op)
    (h : w &&& row.mask ≠ row.pattern) : decode w = .error .reservedNotZero := by
  rw [decode_of_op hrow hop, if_neg h]

/-- R93: what decodes is the words that match a row. -/
theorem exists_row_of_decode_ok {w : Word} {i : Instr} (h : decode w = .ok i) :
    ∃ row ∈ opcodeRows, w &&& row.mask = row.pattern ∧ row.command w = i := by
  unfold decode at h
  split at h
  case h_1 => cases h
  case h_2 row hfind =>
    split at h
    case isTrue hw => exact ⟨row, List.mem_of_find?_eq_some hfind, hw, Except.ok.inj h⟩
    case isFalse => cases h

/-- R92: idx is w[15:0]. -/
theorem idxField_eq (w : Word) : idxField w = w.toNat % 65536 := BitVec.extractLsb'_toNat 0 16 w

/-- Settles O3: `decode_of_matches` at each row of the table. -/
theorem decodeSelectsByMatchAndMask : Obligations.DecodeSelectsByMatchAndMask := by
  intro w
  have hrows : ∀ row ∈ opcodeRows, w &&& row.mask = row.pattern → decode w = .ok (row.command w) :=
    fun _ => decode_of_matches
  simpa only [opcodeRows, ffRows, encRows, decRows, List.cons_append, List.nil_append, List.forall_mem_cons,
    List.not_mem_nil, false_implies, implies_true, and_true, OpcodeRow.command, aField, bField, idxField_eq] using hrows

/-! ### From a command to its word and back -/

theorem wordF2_op (op a b : Byte) : (wordF2 op a b).extractLsb' 24 8 = op := by
  rw [wordF2, BitVec.extractLsb'_append_eq_of_le (by decide), BitVec.extractLsb'_append_eq_of_le (by decide)]
  exact BitVec.extractLsb'_append_eq_left

theorem wordF2_a (op a b : Byte) : (wordF2 op a b).extractLsb' 16 8 = a := by
  rw [wordF2, BitVec.extractLsb'_append_eq_of_le (by decide), BitVec.extractLsb'_append_eq_of_le (by decide)]
  exact BitVec.extractLsb'_append_eq_right

theorem wordF2_b (op a b : Byte) : (wordF2 op a b).extractLsb' 8 8 = b := by
  rw [wordF2, BitVec.extractLsb'_append_eq_of_le (by decide)]
  exact BitVec.extractLsb'_append_eq_right

theorem wordF1_op (op a : Byte) : (wordF1 op a).extractLsb' 24 8 = op := by
  rw [wordF1, BitVec.extractLsb'_append_eq_of_le (by decide)]
  exact BitVec.extractLsb'_append_eq_left

theorem wordF1_a (op a : Byte) : (wordF1 op a).extractLsb' 16 8 = a := by
  rw [wordF1, BitVec.extractLsb'_append_eq_of_le (by decide)]
  exact BitVec.extractLsb'_append_eq_right

theorem wordS_opAndReserved (op : Byte) (idx : Nat) : (wordS op idx).extractLsb' 16 16 = op ++ 0#8 :=
  BitVec.extractLsb'_append_eq_left

theorem wordS_idx (op : Byte) {idx : Nat} (h : idxFits idx = true) : (wordS op idx).toNat % 65536 = idx := by
  rw [← idxField_eq, idxField, wordS, BitVec.extractLsb'_append_eq_right, BitVec.toNat_ofNat]
  exact Nat.mod_eq_of_lt (of_decide_eq_true h)

/-- Settles O1: a command's word matches the command's row, and its operand fields give the operands back. -/
theorem encodeThenDecodeGivesBack : Obligations.EncodeThenDecodeGivesBack := by
  intro i hi
  obtain ⟨hadd, hsub, hmul, hdiv, hinv, hencInit, hencAdd, hencComplete, hencGenCoded, hencGenUncoded, hencNext,
    hdecInit, hdecProcess, hdecCanDecode, hdecRank, hdecGet, hdecNext, hdecState⟩ :=
    decodeSelectsByMatchAndMask (encode i)
  cases i with
  | ffAdd a b => rw [hadd (Laws.EncodedWordMatches.ffAdd a b), encode, wordF2_a, wordF2_b]
  | ffSub a b => rw [hsub (Laws.EncodedWordMatches.ffSub a b), encode, wordF2_a, wordF2_b]
  | ffMul a b => rw [hmul (Laws.EncodedWordMatches.ffMul a b), encode, wordF2_a, wordF2_b]
  | ffDiv a b => rw [hdiv (Laws.EncodedWordMatches.ffDiv a b), encode, wordF2_a, wordF2_b]
  | ffInv a => rw [hinv (Laws.EncodedWordMatches.ffInv a), encode, wordF1_a]
  | encInit => exact hencInit Laws.EncodedWordMatches.encInit
  | encAdd idx => rw [hencAdd (Laws.EncodedWordMatches.encAdd idx), encode, wordS_idx _ hi]
  | encComplete => exact hencComplete Laws.EncodedWordMatches.encComplete
  | encGenCoded => exact hencGenCoded Laws.EncodedWordMatches.encGenCoded
  | encGenUncoded idx =>
    rw [hencGenUncoded (Laws.EncodedWordMatches.encGenUncoded idx), encode, wordS_idx _ hi]
  | encNext => exact hencNext Laws.EncodedWordMatches.encNext
  | decInit => exact hdecInit Laws.EncodedWordMatches.decInit
  | decProcess => exact hdecProcess Laws.EncodedWordMatches.decProcess
  | decCanDecode => exact hdecCanDecode Laws.EncodedWordMatches.decCanDecode
  | decRank => exact hdecRank Laws.EncodedWordMatches.decRank
  | decGet idx => rw [hdecGet (Laws.EncodedWordMatches.decGet idx), encode, wordS_idx _ hi]
  | decNext => exact hdecNext Laws.EncodedWordMatches.decNext
  | decState => exact hdecState Laws.EncodedWordMatches.decState

/-- Settles O6: each word is the word `encode` gives its command. -/
theorem sampleWordsDecode : Obligations.SampleWordsDecode :=
  ⟨encodeThenDecodeGivesBack (.ffMul 0x53#8 0xCA#8) rfl, encodeThenDecodeGivesBack (.ffInv 0x53#8) rfl,
    encodeThenDecodeGivesBack (.encAdd 1) rfl, encodeThenDecodeGivesBack .encGenCoded rfl,
    encodeThenDecodeGivesBack .decProcess rfl, encodeThenDecodeGivesBack (.decGet 65535) rfl⟩

/-! ### From a word to its command and back -/

/-- The words of format F2 with an opcode are those that match its row (the converse of `wordF2_masked`). -/
theorem wordF2_of_masked {w : Word} {op : Byte} (h : w &&& 0xFF0000FF#32 = wordF2 op 0#8 0#8) :
    wordF2 op (aField w) (bField w) = w := by
  have hop : w.extractLsb' 24 8 = op := (extractLsb'_eq_of_masked h (by decide)).trans (wordF2_op op 0#8 0#8)
  have hlow : w.extractLsb' 0 8 = 0#8 :=
    (extractLsb'_eq_of_masked h (by decide)).trans BitVec.extractLsb'_append_eq_right
  rw [wordF2, aField, bField, ← hop, ← hlow, BitVec.extractLsb'_append_extractLsb'_eq_extractLsb' (by decide),
    BitVec.extractLsb'_append_extractLsb'_eq_extractLsb' (by decide)]
  exact BitVec.extractLsb'_append_extractLsb'

/-- The words of format F1 with an opcode are those that match its row. -/
theorem wordF1_of_masked {w : Word} {op : Byte} (h : w &&& 0xFF00FFFF#32 = wordF1 op 0#8) :
    wordF1 op (aField w) = w := by
  have hop : w.extractLsb' 24 8 = op := (extractLsb'_eq_of_masked h (by decide)).trans (wordF1_op op 0#8)
  have hlow : w.extractLsb' 0 16 = 0#16 :=
    (extractLsb'_eq_of_masked h (by decide)).trans BitVec.extractLsb'_append_eq_right
  rw [wordF1, aField, ← hop, ← hlow, BitVec.extractLsb'_append_extractLsb'_eq_extractLsb' (by decide)]
  exact BitVec.extractLsb'_append_extractLsb'

/-- The words of format S with an opcode are those that match its row. -/
theorem wordS_of_masked {w : Word} {op : Byte} (h : w &&& 0xFFFF0000#32 = wordS op 0) :
    wordS op (idxField w) = w := by
  have hhigh : w.extractLsb' 16 16 = op ++ 0#8 :=
    (extractLsb'_eq_of_masked h (by decide)).trans (wordS_opAndReserved op 0)
  rw [wordS, idxField, BitVec.ofNat_toNat, BitVec.setWidth_eq, ← hhigh]
  exact BitVec.extractLsb'_append_extractLsb'

theorem wordZ_of_masked {w : Word} {op : Byte} (h : w &&& 0xFFFFFFFF#32 = wordZ op) : wordZ op = w :=
  h.symm.trans BitVec.and_allOnes

theorem idxFits_idxField (w : Word) : idxFits (idxField w) = true := decide_eq_true (BitVec.isLt _)

/-- A word that matches the row is the word of the row's command, whose operands are in range (30_encoding.md R91,
R99). -/
def OpcodeRow.Inverts (w : Word) (row : OpcodeRow) : Prop :=
  w &&& row.mask = row.pattern → (row.command w).wellFormed = true ∧ encode (row.command w) = w

theorem ffRows_invert (w : Word) : ∀ row ∈ ffRows, row.Inverts w := by
  simp only [ffRows, List.forall_mem_cons]
  exact ⟨fun h => ⟨rfl, wordF2_of_masked h⟩, fun h => ⟨rfl, wordF2_of_masked h⟩, fun h => ⟨rfl, wordF2_of_masked h⟩,
    fun h => ⟨rfl, wordF2_of_masked h⟩, fun h => ⟨rfl, wordF1_of_masked h⟩, List.forall_mem_nil _⟩

theorem encRows_invert (w : Word) : ∀ row ∈ encRows, row.Inverts w := by
  simp only [encRows, List.forall_mem_cons]
  exact ⟨fun h => ⟨rfl, wordZ_of_masked h⟩, fun h => ⟨idxFits_idxField w, wordS_of_masked h⟩,
    fun h => ⟨rfl, wordZ_of_masked h⟩, fun h => ⟨rfl, wordZ_of_masked h⟩,
    fun h => ⟨idxFits_idxField w, wordS_of_masked h⟩, fun h => ⟨rfl, wordZ_of_masked h⟩, List.forall_mem_nil _⟩

theorem decRows_invert (w : Word) : ∀ row ∈ decRows, row.Inverts w := by
  simp only [decRows, List.forall_mem_cons]
  exact ⟨fun h => ⟨rfl, wordZ_of_masked h⟩, fun h => ⟨rfl, wordZ_of_masked h⟩, fun h => ⟨rfl, wordZ_of_masked h⟩,
    fun h => ⟨rfl, wordZ_of_masked h⟩, fun h => ⟨idxFits_idxField w, wordS_of_masked h⟩,
    fun h => ⟨rfl, wordZ_of_masked h⟩, fun h => ⟨rfl, wordZ_of_masked h⟩, List.forall_mem_nil _⟩

/-- Settles O2: the word matches a row of one of the three units, and the row's command has no other word. -/
theorem decodeThenEncodeGivesBack : Obligations.DecodeThenEncodeGivesBack := by
  intro w i h
  obtain ⟨row, hrow, hw, rfl⟩ := exists_row_of_decode_ok h
  have hinverts : ∀ row ∈ opcodeRows, row.Inverts w :=
    List.forall_mem_append.2 ⟨List.forall_mem_append.2 ⟨ffRows_invert w, encRows_invert w⟩, decRows_invert w⟩
  exact hinverts row hrow hw

end Sys2Proof
end

section

/-! ## Illegal words, and the sums of the FF unit (30_encoding.md R96, 40_finite_field.md R130, R131) -/

namespace Sys2Proof.Machine

theorem runCommand_of_no_match {w : Word} (h : ∀ row ∈ commandPatterns, w &&& row.2 ≠ row.1) (s : State) :
    runCommand w s = .next (illegalWord s) := by
  unfold runCommand
  cases hd : decode w with
  | error => rfl
  | ok i =>
    obtain ⟨row, hrow, hw, -⟩ := exists_row_of_decode_ok hd
    have hpattern : (row.pattern, row.mask) ∈ commandPatterns := opcodeRows_patterns ▸ List.mem_map_of_mem hrow
    exact absurd hw (h _ hpattern)

/-- Settles O5: such a word is no command, and `illegalWord` is fail(ERR_ILLEGAL). -/
theorem illegalWordSetsStatusAndResultOnly : Obligations.IllegalWordSetsStatusAndResultOnly := by
  intro s w rest hp h
  rw [step_of_event hp]
  exact runCommand_of_no_match h _

theorem byteWord_eq_append (b : Byte) : byteWord b = 0#24 ++ b := BitVec.setWidth_eq_append (by decide)

/-- R96 for format F2: an opcode of that format with bits [7:0] not 0 spells no command. -/
theorem decode_of_reserved_ne_zero {row : OpcodeRow} {w : Word} (hrow : row ∈ opcodeRows) (hop : opField w = row.op)
    (hmask : row.mask.extractLsb' 0 8 = 0xFF#8) (hpattern : row.pattern.extractLsb' 0 8 = 0#8)
    (hw : w.extractLsb' 0 8 ≠ 0#8) : decode w = .error .reservedNotZero :=
  decode_of_not_matches hrow hop fun h => hw ((extractLsb'_eq_of_masked h hmask).trans hpattern)

theorem exec_ffAdd (a b : Byte) (s : State) :
    exec (.ffAdd a b) s = .next { s with status := 0x00#8, result := 0#24 ++ (a ^^^ b) } := by
  rw [exec_eq_next_effect, effect, byteWord_eq_append]
  rfl

/-- R125: FF_SUB's sum is FF_ADD's. -/
theorem exec_ffSub (a b : Byte) (s : State) :
    exec (.ffSub a b) s = .next { s with status := 0x00#8, result := 0#24 ++ (a ^^^ b) } := exec_ffAdd a b s

/-- Settles O14: both are R124's sum, and the rows of both opcodes hold bits [7:0] to 0. -/
theorem ffAddAndFfSubAreExclusiveOr : Obligations.FfAddAndFfSubAreExclusiveOr := by
  refine ⟨fun a b s => ⟨exec_ffAdd a b s, exec_ffSub a b s⟩, fun a b => ⟨rfl, rfl⟩, fun w hop hlow => ?_⟩
  have hadd : ffRows[0] ∈ opcodeRows := List.mem_append_left _ (List.mem_append_left _ (List.getElem_mem _))
  have hsub : ffRows[1] ∈ opcodeRows := List.mem_append_left _ (List.mem_append_left _ (List.getElem_mem _))
  obtain hop | hop := hop
  · exact decode_of_reserved_ne_zero hadd hop rfl rfl hlow
  · exact decode_of_reserved_ne_zero hsub hop rfl rfl hlow

end Sys2Proof.Machine
end

section

/-! ## The packet carry line o2i (30_encoding.md R100)

A pair of accesses copies one byte, so the pairs copy OBUF's bytes at the indices of the list, and the write of ILEN
ends the line. -/

namespace Sys2Proof.Machine

/-! ### The bytes copied -/

/-- IBUF after the byte pairs of o2i; `run_carryBytes` ties it to the run. -/
def carryInto (s : State) : List Nat → Memory → Memory
  | [], m => m
  | i :: rest, m => carryInto s rest (m.write i (s.readOBuf i))

theorem carryInto_read (s : State) (l : List Nat) (m : Memory) (a : Nat) :
    (carryInto s l m).read a = if a ∈ l then s.readOBuf a else m.read a := by
  induction l generalizing m with
  | nil => simp [carryInto]
  | cons i rest ih =>
    rw [carryInto, ih, Memory.read_write]
    by_cases ha : a = i <;> simp [ha]

/-! ### The run -/

theorem run_succ (M : Host.Core) {s t : M.State} (h : M.step s = .next t) (k : Nat) :
    M.run (k + 1) s = M.run k t := by
  simp only [Host.Core.run, h]

theorem run_succ_of_step {s t : State} (h : step s = .next t) (k : Nat) :
    Host.Core.run core (k + 1) s = Host.Core.run core k t := run_succ core h k

theorem step_of_writeIBuf {s : State} {i : Nat} {b : Byte} {rest : List HostEvent}
    (hp : s.pending = .access (.writeIBuf i b) :: rest) (hi : i < s.bufCap) :
    step s = .next { s with pending := rest, reply := .nothing, ibuf := s.ibuf.write i b } := by
  rw [step_of_event hp]
  exact congrArg Host.Outcome.next (if_pos hi)

/-- WriteIBuf(i, ReadOBuf(i)), the two steps of one pair. -/
theorem run_carryPair {s : State} {i : Nat} {b : Byte} {rest : List HostEvent}
    (hp : s.pending = .access (.readOBuf i) :: .access (.writeIBuf i b) :: rest) (hi : i < s.bufCap) (k : Nat) :
    Host.Core.run core (k + 2) s =
      Host.Core.run core k { s with pending := rest, reply := .nothing, ibuf := s.ibuf.write i b } := by
  have hwrite := step_of_writeIBuf
    (s := { s with pending := .access (.writeIBuf i b) :: rest, reply := .byte (s.readOBuf i) }) rfl hi
  exact (run_succ_of_step (step_of_event hp) (k + 1)).trans (run_succ_of_step hwrite k)

/-- The byte pairs of o2i for a list of indices below BUF_CAP, and the write of ILEN after them. -/
theorem run_carryBytes (s₀ : State) (v : Word) (rest : List HostEvent) (l : List Nat) (s : State)
    (hl : ∀ i ∈ l, i < s.bufCap)
    (hp : s.pending = (carryBytes s₀ l ++ [HostAccess.writeReg 2 v]).map HostEvent.access ++ rest) :
    Host.Core.run core (2 * l.length + 1) s =
      .next { s with pending := rest, reply := .nothing, ilen := v, ibuf := carryInto s₀ l s.ibuf } := by
  induction l generalizing s with
  | nil => exact (run_succ_of_step (step_of_event hp) 0).trans rfl
  | cons i l ih =>
    obtain ⟨hi, hl⟩ := List.forall_mem_cons.1 hl
    exact (run_carryPair hp hi (2 * l.length + 1)).trans (ih _ hl rfl)

/-- Settles O11: the indices are those below OLEN. -/
theorem packetCarryLineMovesOBufToIBuf : Obligations.PacketCarryLineMovesOBufToIBuf := by
  intro s hp holen
  have hbound : ∀ i ∈ List.range s.olen.toNat, i < s.bufCap :=
    fun i hi => (List.mem_range.1 hi).trans_le holen
  have hrun := run_carryBytes s s.olen s.pending (List.range s.olen.toNat) (s.issue .o2i) hbound rfl
  rw [List.length_range, hp] at hrun
  refine ⟨_, hrun, ?_, fun a => ?_⟩
  · rw [← hp]; rfl
  · refine (carryInto_read s _ s.ibuf a).trans ?_
    simp only [List.mem_range]
    split
    case isTrue ha => rw [State.readOBuf, if_pos (ha.trans_le holen)]
    case isFalse => rfl

end Sys2Proof.Machine
end

section

/-! ## The products and quotients of the FF unit (40_finite_field.md R122, R126 to R129, R132 to R134)

A quotient, and an inverse, is the one element whose product with the divisor is the dividend: the laws of R129 on them
follow from `gfDiv_gfMul` and `gfInv_gfMul` by cancelling that divisor. -/

namespace Sys2Proof.Machine

/-- Settles O18: the tables' facts, with EXP[255] = EXP[0]. -/
theorem tablesAreInverseOfEachOther : Obligations.TablesAreInverseOfEachOther :=
  ⟨rfl, expAt_succ, rfl, expAt_logAt, logAt_expAt⟩

/-! ### The laws of the field -/

theorem gfMul_gfInv {a : Byte} (ha : a ≠ 0#8) : gfMul a (gfInv a) = 0x01#8 := by rw [gfMul_comm, gfInv_gfMul ha]

theorem gfMul_right_cancel {a b c : Byte} (hc : c ≠ 0#8) (h : gfMul a c = gfMul b c) : a = b :=
  calc a = gfMul (gfMul a c) (gfInv c) := by rw [gfMul_assoc, gfMul_gfInv hc, gfMul_one]
    _ = gfMul (gfMul b c) (gfInv c) := by rw [h]
    _ = b := by rw [gfMul_assoc, gfMul_gfInv hc, gfMul_one]

/-- R127 by R120: the quotient is the only solution of q * b = a. -/
theorem gfDiv_eq_of_gfMul_eq {a b q : Byte} (hb : b ≠ 0#8) (h : gfMul q b = a) : gfDiv a b = q :=
  gfMul_right_cancel hb ((gfDiv_gfMul a hb).trans h.symm)

theorem gfDiv_eq_gfMul_gfInv (a : Byte) {b : Byte} (hb : b ≠ 0#8) : gfDiv a b = gfMul a (gfInv b) :=
  gfDiv_eq_of_gfMul_eq hb (by rw [gfMul_assoc, gfInv_gfMul hb, gfMul_one])

theorem gfInv_gfInv {a : Byte} (ha : a ≠ 0#8) : gfInv (gfInv a) = a :=
  gfMul_right_cancel (gfInv_ne_zero a) (by rw [gfInv_gfMul (gfInv_ne_zero a), gfMul_gfInv ha])

theorem eq_zero_or_eq_zero_of_gfMul_eq_zero {a b : Byte} (h : gfMul a b = 0#8) : a = 0#8 ∨ b = 0#8 := by
  by_contra! hne
  exact gfMul_ne_zero hne.1 hne.2 h

/-- Settles O19: sums are exclusive or, quotients and inverses cancel. -/
theorem fieldLawsHold : Obligations.FieldLawsHold := by
  refine ⟨BitVec.xor_comm, fun a b c => (BitVec.xor_assoc a b c).symm, gfMul_comm, fun a b c => (gfMul_assoc a b c).symm,
    gfMul_xor, fun _ => gfMul_gfInv, fun a b hb => gfDiv_eq_of_gfMul_eq hb rfl, fun a => ?units, fun a ha => ?self, rfl,
    fun a b => gfDiv_eq_gfMul_gfInv a, fun _ _ => eq_zero_or_eq_zero_of_gfMul_eq_zero⟩
  case units =>
    exact ⟨BitVec.xor_self, BitVec.xor_zero, gfMul_one a, gfMul_zero a, gfDiv_eq_of_gfMul_eq (by decide) (gfMul_one a)⟩
  case self => exact ⟨gfDiv_eq_of_gfMul_eq ha (one_gfMul a), gfInv_gfInv ha⟩

/-! ### The commands -/

/-- A command that ends in `ok` with a field element v: STATUS 0x00, RESULT v, nothing else (10_state.md R28). -/
theorem ok_byteWord (v : Byte) (s : State) :
    ok (byteWord v) s = { s with status := 0x00#8, result := 0#24 ++ v } := by
  rw [byteWord_eq_append]
  rfl

/-- R225: FF_ZERO, RESULT 0 and ERR[0] set, nothing else. -/
theorem failZeroDivisor_eq (s : State) :
    failZeroDivisor s = { s with status := 0x10#8, result := 0#32, errFfz := true } := rfl

theorem exec_ffMul (a b : Byte) (s : State) :
    exec (.ffMul a b) s = .next { s with status := 0x00#8, result := 0#24 ++ gfMul a b } := by
  rw [exec_eq_next_effect, effect, ok_byteWord]

theorem exec_ffDiv_of_ne_zero (a : Byte) {b : Byte} (hb : b ≠ 0#8) (s : State) :
    exec (.ffDiv a b) s = .next { s with status := 0x00#8, result := 0#24 ++ gfDiv a b } := by
  rw [exec_eq_next_effect, effect, if_neg hb, ok_byteWord]

theorem exec_ffDiv_zero (a : Byte) (s : State) :
    exec (.ffDiv a 0#8) s = .next { s with status := 0x10#8, result := 0#32, errFfz := true } := by
  rw [exec_eq_next_effect, effect, if_pos rfl, failZeroDivisor_eq]

theorem exec_ffInv_of_ne_zero {a : Byte} (ha : a ≠ 0#8) (s : State) :
    exec (.ffInv a) s = .next { s with status := 0x00#8, result := 0#24 ++ gfInv a } := by
  rw [exec_eq_next_effect, effect, if_neg ha, ok_byteWord]

theorem exec_ffInv_zero (s : State) :
    exec (.ffInv 0#8) s = .next { s with status := 0x10#8, result := 0#32, errFfz := true } := by
  rw [exec_eq_next_effect, effect, if_pos rfl, failZeroDivisor_eq]

/-- R96 for FF_INV, of format F1: its row holds bits [15:0] to 0. -/
theorem decode_ffInv_of_reserved_ne_zero {w : Word} (hop : opField w = 0x05#8) (hlow : w.extractLsb' 0 16 ≠ 0#16) :
    decode w = .error .reservedNotZero := by
  have hinv : ffRows[4] ∈ opcodeRows := List.mem_append_left _ (List.mem_append_left _ (List.getElem_mem _))
  refine decode_of_not_matches hinv hop fun h => hlow ?_
  exact extractLsb'_eq_of_masked h rfl

/-- Settles O15: the product of the tables is the product of the polynomials. -/
theorem ffMulIsThePolynomialProduct : Obligations.FfMulIsThePolynomialProduct := fun a b s =>
  ⟨rfl, by rw [exec_ffMul, gfMul_eq_fieldProduct]⟩

/-- Settles O16: the quotient of the tables, times b, is a. -/
theorem ffDivIsTheQuotient : Obligations.FfDivIsTheQuotient := by
  refine fun a b s => ⟨rfl, fun hb => ⟨gfDiv a b, ?_, exec_ffDiv_of_ne_zero a hb s⟩, fun hb => ?_⟩
  · rw [← gfMul_eq_fieldProduct, gfDiv_gfMul a hb]
  · rw [hb, exec_ffDiv_zero]

/-- Settles O17: a, times the inverse of the tables, is 1. -/
theorem ffInvIsTheInverse : Obligations.FfInvIsTheInverse := by
  refine ⟨fun w hop hlow => decode_ffInv_of_reserved_ne_zero hop hlow, fun a s => ⟨rfl, fun ha => ?_, fun ha => ?_⟩⟩
  · exact ⟨gfInv a, by rw [← gfMul_eq_fieldProduct, gfMul_gfInv ha], exec_ffInv_of_ne_zero ha s⟩
  · rw [ha, exec_ffInv_zero]

end Sys2Proof.Machine
end

section

/-! ## The commands of the encoder (41_encoder.md R151 to R162)

The checks of ENC_ADD, ENC_COMPLETE and ENC_GEN_CODED compare enc.count with N and with 0; `count_eq_n_iff` and
`count_eq_zero_iff` say what each comparison means slot by slot. -/

namespace Sys2Proof.Machine

/-! ### How a command fails -/

theorem failsWith_of_effect {i : Instr} {s : State} {c : Status} (h : effect i s = fail c s) :
    FailsWith i s c.code := by
  rw [FailsWith, exec_eq_next_effect, h]
  rfl

theorem producerFailsWith_of_effect {i : Instr} {s : State} {c : Status} (h : effect i s = failProducing c s) :
    ProducerFailsWith i s c.code := by
  rw [ProducerFailsWith, exec_eq_next_effect, h]
  rfl

/-! ### The count of occupied slots (10_state.md R37) -/

theorem count_take_eq_countP (l : List Bool) (n : Nat) :
    (l.take n).count true = (List.range n).countP fun i => l.getD i false := by
  induction n with
  | zero => rfl
  | succ n ih =>
    rw [List.take_add_one, List.count_append, ih, List.range_succ, List.countP_append, List.countP_singleton,
      List.getD_eq_getElem?_getD]
    congr 1
    rcases l[n]? with _ | _ | _ <;> rfl

/-- enc.count is the number of occupied slots below N. -/
theorem count_eq_countP (e : EncUnit) : e.count = (List.range e.n.toNat).countP e.slotValid :=
  count_take_eq_countP e.valid e.n.toNat

theorem count_eq_n_iff (e : EncUnit) : e.count = e.n.toNat ↔ ∀ i < e.n.toNat, e.slotValid i = true := by
  have h := List.countP_eq_length (p := e.slotValid) (l := List.range e.n.toNat)
  rw [← count_eq_countP, List.length_range] at h
  simpa only [List.mem_range] using h

theorem count_eq_zero_iff (e : EncUnit) : e.count = 0 ↔ ∀ i < e.n.toNat, e.slotValid i = false := by
  rw [count_eq_countP, List.countP_eq_zero]
  simp only [List.mem_range, Bool.not_eq_true]

theorem count_ne_n {e : EncUnit} (h : ∃ i < e.n.toNat, e.slotValid i = false) : e.count ≠ e.n.toNat := by
  obtain ⟨i, hi, hfalse⟩ := h
  exact fun hfull => ne_true_of_eq_false hfalse ((count_eq_n_iff e).1 hfull i hi)

/-- A unit with a slot below N is configured. -/
theorem n_ne_zero_of_lt {e : EncUnit} {idx : Nat} (h : idx < e.n.toNat) : e.n ≠ 0#16 := by
  intro h0
  rw [h0] at h
  exact absurd h idx.not_lt_zero

/-! ### ENC_INIT and ENC_NEXT -/

theorem one_le_toNat_iff {w : Nat} (v : BitVec w) : 1 ≤ v.toNat ↔ v ≠ 0#w := by
  rw [Nat.one_le_iff_ne_zero, ← BitVec.toNat_ne_iff_ne, BitVec.toNat_ofNat, Nat.zero_mod]

theorem sizesLegal_iff_argLegal (s : State) : SizesLegal s ↔ s.argLegal = true := by
  rw [argLegal_iff, SizesLegal, one_le_toNat_iff, one_le_toNat_iff]
  rfl

/-- Settles O20: `State.argLegal` is R151's condition, and the empty slots and the zeroed buffer read so. -/
theorem encInitConstructsTheEncoder : Obligations.EncInitConstructsTheEncoder := by
  refine ⟨rfl, fun s => ?_⟩
  rw [sizesLegal_iff_argLegal]
  refine ⟨fun hlegal => ?_, fun hillegal => failsWith_of_effect (c := .errParam) (if_neg hillegal)⟩
  exact ⟨_, congrArg Host.Outcome.next (if_pos hlegal), rfl, rfl, rfl, rfl, slotValid_of_replicate rfl,
    fun _ _ _ _ => rfl⟩

/-- Settles O28: the new id is the sum in 32 bits, and the empty slots and the zeroed buffer read so. -/
theorem encNextStartsTheNextGeneration : Obligations.EncNextStartsTheNextGeneration := by
  refine ⟨rfl, fun s => ⟨fun h0 => failsWith_of_effect (c := .errNotInit) (if_pos h0), fun hn => ?_⟩⟩
  exact ⟨_, congrArg Host.Outcome.next (if_neg hn), rfl, BitVec.toNat_add _ _, slotValid_of_replicate rfl,
    fun _ _ _ _ => rfl⟩

/-! ### ENC_ADD -/

/-- ENC_ADD of an empty slot passes all its checks (41_encoder.md R153). -/
theorem encAdd_of_empty {s : State} {idx : Nat} (hlen : s.ilen.toNat ≤ s.bufCap) (hidx : idx < s.enc.n.toNat)
    (hempty : s.enc.slotValid idx = false) :
    encAdd idx s =
      ok 1#32
        { s with
          enc :=
            { s.enc with
              buf := s.enc.buf.writeRow s.pMax idx (normPayload s.enc.p.toNat s.ilen.toNat s.ibuf)
              valid := s.enc.valid.set idx true } } := by
  rw [encAdd, if_neg (n_ne_zero_of_lt hidx), if_neg hlen.not_gt, if_neg (count_ne_n ⟨idx, hidx, hempty⟩),
    if_neg hidx.not_ge, if_neg (ne_true_of_eq_false hempty)]

theorem slotValid_set {e e' : EncUnit} {idx : Nat} (hvalid : e'.valid = e.valid.set idx true)
    (hidx : idx < e.valid.length) (i : Nat) : e'.slotValid i = if i = idx then true else e.slotValid i := by
  rw [EncUnit.slotValid, EncUnit.slotValid, hvalid, List.getD_eq_getElem?_getD, List.getD_eq_getElem?_getD]
  by_cases hi : i = idx
  · rw [hi, List.getElem?_set_self hidx, if_pos rfl, Option.getD_some]
  · rw [List.getElem?_set_ne (Ne.symm hi), if_neg hi]

theorem normPayload_getD {p j : Nat} (len : Nat) (ibuf : Memory) (hj : j < p) :
    (normPayload p len ibuf).getD j 0#8 = if j < len then ibuf.read j else 0#8 :=
  getD_map_range _ hj

/-- Settles O21: the slot's row is written with the normalised payload and its bit is set. -/
theorem encAddBuffersTheNormalisedPayload : Obligations.EncAddBuffersTheNormalisedPayload := by
  intro s idx h hlen hidx hempty
  have hslot : idx < s.enc.valid.length := h.slots.symm ▸ hidx.trans_le h.nBound
  refine ⟨_, congrArg Host.Outcome.next (encAdd_of_empty hlen hidx hempty), rfl, slotValid_set rfl hslot,
    fun j hj => ?_, fun a ha => ?_⟩
  · rw [← normPayload_getD s.ilen.toNat s.ibuf hj]
    exact read_writeRow_self ((normPayload_length ..).symm ▸ hj)
  · refine (Memory.read_writeRow _ _ _ _ _).trans (if_neg ?_)
    rw [normPayload_length]
    omega

/-- Settles O22: each clause is one exit of `encAdd`, past the checks before it. -/
theorem encAddFailsInOrder : Obligations.EncAddFailsInOrder := by
  refine fun s idx => ⟨fun h0 => ?notInit, fun hn hlong => ?param, fun hn hlen hfull => ?full,
    fun hn hlen hfree hidx => ?range, fun hn hlen hfree hidx hvalid => ?dup⟩
  case notInit => exact failsWith_of_effect (c := .errNotInit) (if_pos h0)
  case param =>
    refine failsWith_of_effect (c := .errParam) ?_
    rw [effect, encAdd, if_neg hn, if_pos hlong]
  case full =>
    refine failsWith_of_effect (c := .encFull) ?_
    rw [effect, encAdd, if_neg hn, if_neg hlen.not_gt, if_pos ((count_eq_n_iff _).2 hfull)]
  case range =>
    refine failsWith_of_effect (c := .encRange) ?_
    rw [effect, encAdd, if_neg hn, if_neg hlen.not_gt, if_neg (count_ne_n hfree), if_pos hidx]
  case dup =>
    refine failsWith_of_effect (c := .encDup) ?_
    rw [effect, encAdd, if_neg hn, if_neg hlen.not_gt, if_neg (count_ne_n hfree), if_neg hidx.not_ge, if_pos hvalid]

/-! ### ENC_COMPLETE -/

/-- Settles O23: the count of R154 is N exactly when every slot below N is occupied. -/
theorem encCompleteTellsAFullGeneration : Obligations.EncCompleteTellsAFullGeneration := by
  refine ⟨rfl, fun s => ⟨fun h0 => failsWith_of_effect (c := .errNotInit) (if_pos h0), fun hn hfull => ?_,
    fun hn hfree => ?_⟩⟩
  · rw [exec_eq_next_effect, effect, encComplete, if_neg hn, decide_eq_true ((count_eq_n_iff _).2 hfull)]
    rfl
  · rw [exec_eq_next_effect, effect, encComplete, if_neg hn, decide_eq_false (count_ne_n hfree)]
    rfl

/-! ### ENC_GEN_CODED -/

theorem nextDraws_length (s : State) (n : Nat) : (s.nextDraws n).length = n := by
  rw [State.nextDraws, List.length_map, List.length_range]

theorem ne_zero_of_mem_nextDraws {s : State} {n : Nat} {x : Byte} (hx : x ∈ s.nextDraws n) : x ≠ 0#8 := by
  obtain ⟨i, -, rfl⟩ := List.mem_map.1 hx
  exact drawAt_ne_zero _

/-- Settles O24: the packet of O25 for the oracle's own draws, whose vector holds them on the occupied slots. -/
theorem encGenCodedEmitsALinearCombination : Obligations.EncGenCodedEmitsALinearCombination := by
  intro s hn hslot
  obtain ⟨hstate, hheader, hvector, hpayload, habove⟩ :=
    everyDrawVectorGivesItsPacket.2 s _ (s.nextDraws s.enc.n.toNat) hn hslot (nextDraws_length _ _)
      (fun _ => ne_zero_of_mem_nextDraws) rfl
  refine ⟨_, exec_eq_next_effect .encGenCoded s, hstate, hheader, fun i hi => ⟨fun hvalid => ?_, fun hempty => ?_⟩,
    fun j hj => ?_, habove⟩
  · refine (hvector i hi).trans_ne ?_
    rw [if_pos hvalid]
    exact nextDraws_getD_ne_zero s hi
  · refine (hvector i hi).trans ?_
    rw [hempty, if_neg Bool.false_ne_true]
  · refine (hpayload j hj).trans (xorSum_congr fun i hi => ?_)
    split
    case isTrue hvalid =>
      refine congrArg (fieldProduct · (s.encByte i j)) ((hvector i hi).trans ?_).symm
      rw [if_pos hvalid]
    case isFalse => rfl

/-! ### ENC_GEN_UNCODED -/

/-- ENC_GEN_UNCODED of an occupied slot ends in emit (41_encoder.md R160). -/
theorem encGenUncoded_of_occupied {s : State} {idx : Nat} (hidx : idx < s.enc.n.toNat)
    (hvalid : s.enc.slotValid idx = true) :
    encGenUncoded idx s =
      ok 1#32 (emit (identityVector s.enc.n.toNat idx) (s.enc.buf.row s.pMax idx s.enc.p.toNat) s) := by
  rw [encGenUncoded, if_neg (n_ne_zero_of_lt hidx), if_neg hidx.not_ge, if_neg (ne_false_of_eq_true hvalid)]

theorem identityVector_getD {n i : Nat} (k : Nat) (hi : i < n) :
    (identityVector n k).getD i 0#8 = if i = k then 0x01#8 else 0x00#8 :=
  getD_map_range _ hi

/-- R163 for the identity vector: the combination it names is the slot's own packet. -/
theorem xorSum_identity_encByte {s : State} {idx j : Nat} {c : Nat → Byte} (hidx : idx < s.enc.n.toNat)
    (hvalid : s.enc.slotValid idx = true) (hc : ∀ i < s.enc.n.toNat, c i = if i = idx then 0x01#8 else 0x00#8) :
    (xorSum s.enc.n.toNat fun i => if s.enc.slotValid i then fieldProduct (c i) (s.encByte i j) else 0#8) =
      s.encByte idx j := by
  rw [xorSum_eq_single hidx]
  · rw [if_pos hvalid, hc idx hidx, if_pos rfl, ← gfMul_eq_fieldProduct, one_gfMul]
  · intro i hi hne
    rw [hc i hi, if_neg hne, ← gfMul_eq_fieldProduct, zero_gfMul, ite_self]

/-- Settles O26: the packet's bytes are read back from OBUF part by part. -/
theorem encGenUncodedEmitsTheSlot : Obligations.EncGenUncodedEmitsTheSlot := by
  intro s idx hidx hvalid
  have hc := identityVector_length s.enc.n.toNat idx
  have hy := Memory.row_length s.enc.buf s.pMax idx s.enc.p.toNat
  have hvector (i : Nat) (hi : i < s.enc.n.toNat) :=
    (read_emit_vector (y := s.enc.buf.row s.pMax idx s.enc.p.toNat) (s := s) (hc.symm ▸ hi)).trans
      (identityVector_getD idx hi)
  refine ⟨_, congrArg Host.Outcome.next (encGenUncoded_of_occupied hidx hvalid), rfl, ?_⟩
  rw [ok_obuf]
  refine ⟨emit_headerWritten _ _ s, hvector, fun j hj => ⟨?_, (xorSum_identity_encByte hidx hvalid hvector).symm⟩,
    fun a ha => read_emit_above (by rwa [hc, hy])⟩
  have hread := read_emit_payload (c := identityVector s.enc.n.toNat idx) (s := s) (hy.symm ▸ hj)
  rw [hc] at hread
  exact hread.trans (Memory.readBytes_getD _ _ _ _ hj)

/-! ### Both producers, and the frame of the unit -/

/-- Settles O27: each clause is one exit of the two producers, past the checks before it. -/
theorem encProducersFailWithOlenZero : Obligations.EncProducersFailWithOlenZero := by
  refine fun s idx => ⟨fun h0 => ?codedNotInit, fun hn hempty => ?empty, fun h0 => ?uncodedNotInit,
    fun hn hidx => ?range, fun hidx habsent => ?absent⟩
  case codedNotInit => exact producerFailsWith_of_effect (c := .errNotInit) (if_pos h0)
  case empty =>
    refine producerFailsWith_of_effect (c := .encEmpty) ?_
    rw [effect, encGenCoded, if_neg hn, if_pos ((count_eq_zero_iff _).2 hempty)]
  case uncodedNotInit => exact producerFailsWith_of_effect (c := .errNotInit) (if_pos h0)
  case range =>
    refine producerFailsWith_of_effect (c := .encRange) ?_
    rw [effect, encGenUncoded, if_neg hn, if_pos hidx]
  case absent =>
    refine producerFailsWith_of_effect (c := .encAbsent) ?_
    rw [effect, encGenUncoded, if_neg (n_ne_zero_of_lt hidx), if_neg hidx.not_ge, if_pos habsent]

/-- Settles O29: the ENC unit is outside the footprint of every other command. -/
theorem onlyThreeCommandsChangeTheEncoder : Obligations.OnlyThreeCommandsChangeTheEncoder :=
  fun _ _ _ h hi => exec_enc h hi

end Sys2Proof.Machine
end

section

/-! ## The commands of the decoder (42_decoder.md R184, R188 to R191, R196 to R200)

Every exit of DEC_PROCESS and of DEC_GET is said once, and so is what decode() stores; the linear algebra behind them
follows in the next parts. -/

namespace Sys2Proof.Machine

/-! ### DEC_INIT and DEC_NEXT -/

/-- Settles O37: `State.argLegal` is R188's condition, and the zeroed memories read so. -/
theorem decInitConstructsTheDecoder : Obligations.DecInitConstructsTheDecoder := by
  refine ⟨rfl, fun s => ?_⟩
  rw [sizesLegal_iff_argLegal]
  refine ⟨fun hlegal => ?_, fun hillegal => failsWith_of_effect (c := .errParam) (if_neg hillegal)⟩
  exact ⟨_, congrArg Host.Outcome.next (if_pos hlegal), rfl, rfl, rfl, rfl, rfl, rfl, rfl, fun _ => ⟨rfl, rfl, rfl⟩⟩

theorem acceptPacket_gen (s : State) : (acceptPacket s).dec.gen = s.dec.gen := by
  unfold acceptPacket decodeAtFullRank
  split
  case isTrue =>
    obtain ⟨-, -, hgen, -⟩ := decodeRun_dec
      { updateRank (storePacket s) with dec := { (updateRank (storePacket s)).dec with state := .decodable } }
    exact hgen
  case isFalse => rfl

theorem decProcess_gen (s : State) : (decProcess s).dec.gen = s.dec.gen := by
  unfold decProcess
  split_ifs
  case neg => exact acceptPacket_gen s
  all_goals rfl

/-- DEC_GET changes neither the generation id nor the rank, whether or not it decodes (42_decoder.md R197). -/
theorem decGet_gen_rank (idx : Nat) (s : State) :
    (decGet idx s).dec.gen = s.dec.gen ∧ (decGet idx s).dec.rank = s.dec.rank := by
  obtain ⟨-, -, hgen, -, hrank⟩ := decodeRun_dec s
  unfold decGet
  split
  case isTrue => exact ⟨rfl, rfl⟩
  case isFalse =>
    rw [decFetch_dec, lazyDecode]
    split
    case isTrue => exact ⟨hgen, hrank⟩
    case isFalse => exact ⟨rfl, rfl⟩

/-- Settles O52: the new id is the sum in 32 bits, the zeroed memories read so, and no other command writes the id. -/
theorem decNextStartsTheNextGeneration : Obligations.DecNextStartsTheNextGeneration := by
  refine ⟨rfl, fun i s t ht hnext hinit => ?gen, fun s =>
    ⟨fun h0 => failsWith_of_effect (c := .errNotInit) (if_pos h0), fun hn => ?advance⟩⟩
  case gen =>
    cases i with
    | decInit => exact absurd rfl hinit
    | decNext => exact absurd rfl hnext
    | decProcess => exact (exec_eq_next_iff ..).1 ht ▸ decProcess_gen s
    | decGet idx => exact (exec_eq_next_iff ..).1 ht ▸ (decGet_gen_rank idx s).1
    | _ => rw [exec_dec ht rfl]
  case advance =>
    exact ⟨_, congrArg Host.Outcome.next (if_neg hn), rfl, BitVec.toNat_add _ _, fun _ => ⟨rfl, rfl, rfl⟩⟩

/-! ### The exits of DEC_PROCESS -/

/-- The shape test of R184 in the terms of 20_memory.md R68. -/
theorem packetIllShaped_iff (s : State) :
    packetIllShaped s = true ↔ packetSize s.ibuf ≠ s.dec.n ∨ s.dec.n.toNat < (packetCount s.ibuf).toNat ∨
      s.ilen.toNat ≠ 8 + s.dec.n.toNat + s.dec.p.toNat := by
  simp only [packetIllShaped, Bool.or_eq_true, decide_eq_true_eq, or_assoc]

/-- Settles O39: each clause is one exit of `decProcess`, past the checks before it. -/
theorem decProcessRejectsInOrder : Obligations.DecProcessRejectsInOrder := by
  refine fun s => ⟨fun h0 => ?notInit, fun hn hlong => ?param, fun hn hlen hdone => ?done,
    fun hn hlen hopen hshort => ?short, fun hn hlen hopen hheader hgen => ?gen,
    fun hn hlen hopen hheader hgen hshape => ?shape, fun hn hlen hopen hgen hsize hcount hexact hrows => ?noRow⟩
  case notInit => exact failsWith_of_effect (c := .errNotInit) (if_pos h0)
  case param =>
    refine failsWith_of_effect (c := .errParam) ?_
    rw [effect, decProcess, if_neg hn, if_pos hlong]
  case done =>
    refine failsWith_of_effect (c := .decDone) ?_
    rw [effect, decProcess, if_neg hn, if_neg hlen.not_gt, if_pos hdone]
  case short =>
    refine failsWith_of_effect (c := .decMalformed) ?_
    rw [effect, decProcess, if_neg hn, if_neg hlen.not_gt, if_neg hopen, if_pos hshort]
  case gen =>
    refine failsWith_of_effect (c := .decWrongGen) ?_
    rw [effect, decProcess, if_neg hn, if_neg hlen.not_gt, if_neg hopen, if_neg hheader.not_gt, if_pos hgen]
  case shape =>
    refine failsWith_of_effect (c := .decMalformed) ?_
    rw [effect, decProcess, if_neg hn, if_neg hlen.not_gt, if_neg hopen, if_neg hheader.not_gt, if_neg (not_not.2 hgen),
      if_pos ((packetIllShaped_iff s).2 hshape)]
  case noRow =>
    have hshape : ¬ packetIllShaped s = true := by
      rw [packetIllShaped_iff]
      push Not
      exact ⟨hsize, hcount, hexact⟩
    refine failsWith_of_effect (c := .decNoRow) ?_
    rw [effect, decProcess, if_neg hn, if_neg hlen.not_gt, if_neg hopen, if_neg (by omega), if_neg (not_not.2 hgen),
      if_neg hshape, if_pos hrows]

/-- Settles O53: two of the rejections of O39. -/
theorem decodedDecoderRefusesPackets : Obligations.DecodedDecoderRefusesPackets := by
  intro s hn hdone
  obtain ⟨-, hparam, hrefuse, -⟩ := decProcessRejectsInOrder s
  exact ⟨fun hlen => hrefuse hn hlen hdone, hparam hn⟩

/-- An accepted packet passes every check of DEC_PROCESS (42_decoder.md R184). -/
theorem decProcess_of_accepted {s : State} (h : PacketAccepted s) :
    decProcess s = ok (processResult s.dec.rank (acceptPacket s)) (acceptPacket s) := by
  have hlen := h.length
  have hshape : ¬ packetIllShaped s = true := by
    rw [packetIllShaped_iff]
    push Not
    exact ⟨h.size, h.count, hlen⟩
  rw [decProcess, if_neg h.configured, if_neg h.fits.not_gt, if_neg h.notDecoded, if_neg (by omega),
    if_neg (not_not.2 h.gen), if_neg hshape, if_neg h.freeRow]

/-- A DEC_PROCESS that fails leaves the decoder alone (42_decoder.md R200). -/
theorem decProcess_dec_of_failure {s : State} (h : (decProcess s).status ≠ 0x00#8) : (decProcess s).dec = s.dec := by
  revert h
  unfold decProcess
  split_ifs
  case neg => exact fun h => absurd rfl h
  all_goals exact fun _ => rfl

/-! ### The exits of DEC_GET -/

theorem lazyDecode_of_ne_decodable {s : State} (h : s.dec.state ≠ .decodable) : lazyDecode s = s := if_neg h

theorem decGet_of_configured {s : State} (idx : Nat) (hn : s.dec.n ≠ 0#16) :
    decGet idx s = decFetch idx (lazyDecode s) := if_neg hn

/-- After its lazy decode DEC_GET finds an aborted decoder still DECODABLE (42_decoder.md R193, R197). -/
theorem decFetch_of_decodable {s : State} (idx : Nat) (h : s.dec.state = .decodable) :
    decFetch idx s = failProducing .decSingular s := if_pos h

theorem decFetch_of_collecting {s : State} (idx : Nat) (h : s.dec.state = .collecting) :
    decFetch idx s = failProducing .decNotDecoded s := by
  rw [decFetch, if_neg (by rw [h]; decide), if_pos h]

theorem decFetch_of_out_of_range {s : State} {idx : Nat} (h : s.dec.state = .decoded) (hidx : s.dec.n.toNat ≤ idx) :
    decFetch idx s = failProducing .decRange s := by
  rw [decFetch, if_neg (by rw [h]; decide), if_neg (by rw [h]; decide), if_pos hidx]

theorem decFetch_of_decoded {s : State} {idx : Nat} (h : s.dec.state = .decoded) (hidx : idx < s.dec.n.toNat) :
    decFetch idx s =
      { s with
        status := 0x00#8
        result := BitVec.ofNat 32 s.dec.n.toNat
        olen := BitVec.ofNat 32 s.dec.p.toNat
        obuf := s.obuf.writeBytes 0 (s.decPacket idx) } := by
  rw [decFetch, if_neg (by rw [h]; decide), if_neg (by rw [h]; decide), if_neg hidx.not_ge, BitVec.ofNat_toNat,
    BitVec.ofNat_toNat]
  rfl

theorem decPacket_getD {s : State} {j : Nat} (idx : Nat) (hj : j < s.dec.p.toNat) :
    (s.decPacket idx).getD j 0#8 = s.dec.out.read (idx * s.pMax + j) :=
  Memory.readBytes_getD _ _ _ _ hj

theorem read_writeBytes_decPacket {s : State} {j : Nat} (m : Memory) (idx : Nat) (hj : j < s.dec.p.toNat) :
    (m.writeBytes 0 (s.decPacket idx)).read j = (s.decPacket idx).getD j 0#8 := by
  rw [Memory.read_writeBytes, State.decPacket, Memory.row_length, if_pos (by omega), Nat.sub_zero]

theorem read_writeBytes_decPacket_above {s : State} {a : Nat} (m : Memory) (idx : Nat) (ha : s.dec.p.toNat ≤ a) :
    (m.writeBytes 0 (s.decPacket idx)).read a = m.read a := by
  rw [Memory.read_writeBytes, State.decPacket, Memory.row_length, if_neg (by omega)]

/-- A decoder with a packet number below N is configured. -/
theorem dec_n_ne_zero_of_lt {s : State} {idx : Nat} (h : idx < s.dec.n.toNat) : s.dec.n ≠ 0#16 := by
  rw [← one_le_toNat_iff]
  omega

/-- Settles O49: the packet's row of dec.out is written to OBUF. -/
theorem decGetReturnsADecodedPacket : Obligations.DecGetReturnsADecodedPacket := by
  intro s idx hstate hidx
  have hget : decGet idx s = decFetch idx s := by
    rw [decGet_of_configured idx (dec_n_ne_zero_of_lt hidx), lazyDecode_of_ne_decodable (by rw [hstate]; decide)]
  exact ⟨_, congrArg Host.Outcome.next (hget.trans (decFetch_of_decoded hstate hidx)), rfl,
    fun j hj => (read_writeBytes_decPacket _ idx hj).trans (decPacket_getD idx hj),
    fun a ha => read_writeBytes_decPacket_above _ idx ha⟩

/-- Settles O50: each clause is one exit of `decGet`, past the checks before it and with no decode to run. -/
theorem decGetFailsInOrder : Obligations.DecGetFailsInOrder := by
  refine fun s idx => ⟨fun h0 => ?notInit, fun hn hstate => ?notDecoded, fun hn hstate hidx => ?range⟩
  case notInit => exact producerFailsWith_of_effect (c := .errNotInit) (if_pos h0)
  case notDecoded =>
    refine producerFailsWith_of_effect (c := .decNotDecoded) ?_
    rw [effect, decGet_of_configured idx hn, lazyDecode_of_ne_decodable (by rw [hstate]; decide),
      decFetch_of_collecting idx hstate]
  case range =>
    refine producerFailsWith_of_effect (c := .decRange) ?_
    rw [effect, decGet_of_configured idx hn, lazyDecode_of_ne_decodable (by rw [hstate]; decide),
      decFetch_of_out_of_range hstate hidx]

/-- Settles O30: the footprint, and the two commands that only store or only decode. -/
theorem onlyFourCommandsChangeTheDecoder : Obligations.OnlyFourCommandsChangeTheDecoder := by
  refine ⟨fun i s t ht hi => exec_dec ht hi, fun s t ht hfail => ?process, fun idx s t ht hstate => ?get⟩
  case process =>
    rw [exec_eq_next_iff] at ht
    subst ht
    exact decProcess_dec_of_failure hfail
  case get =>
    rw [exec_eq_next_iff] at ht
    subst ht
    rw [effect, decGet]
    split
    case isTrue => rfl
    case isFalse => rw [decFetch_dec, lazyDecode_of_ne_decodable hstate]

/-! ### The queries -/

/-- A command that fails leaves the rank alone (42_decoder.md R190, R200). -/
theorem effect_rank_of_failure {i : Instr} {s : State} (h : (effect i s).status ≠ 0x00#8) :
    (effect i s).dec.rank = s.dec.rank := by
  cases i with
  | decProcess => rw [effect, decProcess_dec_of_failure h]
  | decGet idx => exact (decGet_gen_rank idx s).2
  | decInit =>
    revert h
    rw [effect, decInit]
    split
    case isTrue => exact fun h => absurd rfl h
    case isFalse => exact fun _ => rfl
  | decNext =>
    revert h
    rw [effect, decNext]
    split
    case isTrue => exact fun _ => rfl
    case isFalse => exact fun h => absurd rfl h
  | _ => rw [exec_dec (exec_eq_next_effect _ s) rfl]

theorem decInit_rank_of_success {s : State} (h : (decInit s).status = 0x00#8) : (decInit s).dec.rank = 0 := by
  revert h
  unfold decInit
  split
  case isTrue => exact fun _ => rfl
  case isFalse => exact fun h => absurd h (Status.code_ne_zero .errParam (by decide))

theorem decNext_rank_of_success {s : State} (h : (decNext s).status = 0x00#8) : (decNext s).dec.rank = 0 := by
  revert h
  unfold decNext
  split
  case isTrue => exact fun h => absurd h (Status.code_ne_zero .errNotInit (by decide))
  case isFalse => exact fun _ => rfl

theorem boolWord_decide (p : Prop) [Decidable p] : boolWord (decide p) = if p then 1#32 else 0#32 := by
  simp only [boolWord, decide_eq_true_eq]

theorem exec_decCanDecode {s : State} (hn : s.dec.n ≠ 0#16) :
    exec .decCanDecode s =
      .next { s with status := 0x00#8, result := if s.dec.rank = s.dec.n.toNat then 1#32 else 0#32 } := by
  rw [exec_eq_next_effect, effect, decCanDecode, if_neg hn, boolWord_decide]
  rfl

/-- Settles O48: the queries are `ok` of what the decoder holds; the rank is outside every other command's reach. -/
theorem decQueriesReturnRankAndState : Obligations.DecQueriesReturnRankAndState := by
  refine ⟨rfl, rfl, rfl, fun i s t ht hinit hprocess hnext => ?keep, fun i s t ht hfail => ?failing,
    fun s t ht hok => ?zero, fun s h hstate => ?decoded, fun s => ⟨fun h0 => ?notInit, fun hn => ?configured⟩⟩
  case keep =>
    cases i with
    | decInit => exact absurd rfl hinit
    | decProcess => exact absurd rfl hprocess
    | decNext => exact absurd rfl hnext
    | decGet idx => exact (exec_eq_next_iff ..).1 ht ▸ (decGet_gen_rank idx s).2
    | _ => rw [exec_dec ht rfl]
  case failing =>
    rw [exec_eq_next_iff] at ht
    subst ht
    exact effect_rank_of_failure hfail
  case zero =>
    rw [exec_eq_next_iff, exec_eq_next_iff] at ht
    obtain rfl | rfl := ht
    · exact decInit_rank_of_success hok
    · exact decNext_rank_of_success hok
  case decoded =>
    have hn : s.dec.n ≠ 0#16 := fun h0 => absurd (hstate.symm.trans (h.collecting.2 (.inr h0))) (by decide)
    rw [exec_decCanDecode hn, if_pos (h.decodedFull hstate).1]
  case notInit =>
    exact ⟨failsWith_of_effect (c := .errNotInit) (if_pos h0), failsWith_of_effect (c := .errNotInit) (if_pos h0),
      failsWith_of_effect (c := .errNotInit) (if_pos h0)⟩
  case configured =>
    refine ⟨exec_decCanDecode hn, ?state, fun hrank => ?rank⟩
    case state =>
      rw [exec_eq_next_effect, effect, decState, if_neg hn]
      cases s.dec.state <;> rfl
    case rank =>
      have hfits := s.dec.n.isLt
      refine ⟨_, congrArg Host.Outcome.next (if_neg hn), rfl, ?_⟩
      rw [ok_result, BitVec.toNat_ofNat, Nat.mod_eq_of_lt (by omega)]

end Sys2Proof.Machine
end

section

/-! ## The row space (42_decoder.md R182)

Mathlib's linear algebra needs the bytes as a field. `FieldCopy` is a field with the sums and products of the bytes,
and through it a list of rows spans a subspace, its row space, in which the spec's combinations and independent rows
are the library's. -/

namespace Sys2Proof.Machine

/-! ### The bytes as a field (40_finite_field.md R129) -/

/-- The type of the field elements, without the operations that BitVec has of its own. -/
def FieldElement : Type := Byte

/-- The inverse with 0 sent to 0, as Mathlib has it. -/
def invOrZero (a : Byte) : Byte := if a = 0#8 then 0#8 else gfInv a

theorem gfMul_invOrZero {a : Byte} (ha : a ≠ 0#8) : gfMul a (invOrZero a) = 0x01#8 := by
  rw [invOrZero, if_neg ha, gfMul_gfInv ha]

/-- R129: the field elements with the sum and the product of the tables. -/
@[reducible] def tableField : Field FieldElement :=
  letI : Add FieldElement := ⟨gfAdd⟩
  letI : Zero FieldElement := ⟨(0#8 : Byte)⟩
  letI : Neg FieldElement := ⟨id⟩
  { mul := gfMul
    one := (0x01#8 : Byte)
    inv := invOrZero
    add_assoc := BitVec.xor_assoc
    zero_add _ := BitVec.zero_xor
    add_zero _ := BitVec.xor_zero
    add_comm := BitVec.xor_comm
    neg_add_cancel _ := BitVec.xor_self
    mul_assoc := gfMul_assoc
    mul_comm := gfMul_comm
    one_mul := one_gfMul
    mul_one := gfMul_one
    zero_mul := zero_gfMul
    mul_zero := gfMul_zero
    left_distrib := gfMul_xor
    right_distrib := xor_gfMul
    exists_pair_ne := ⟨(0#8 : Byte), (0x01#8 : Byte), (by decide : (0#8 : Byte) ≠ 0x01#8)⟩
    mul_inv_cancel _ := gfMul_invOrZero
    inv_zero := if_pos rfl
    nsmul := nsmulRec
    zsmul := zsmulRec
    nnqsmul := _
    qsmul := _ }

/-- A field that has the sums and the products of the bytes. -/
structure FieldCopy (K : Type) [Field K] where
  equiv : Byte ≃ K
  map_xor : ∀ a b, equiv (a ^^^ b) = equiv a + equiv b
  map_gfMul : ∀ a b, equiv (gfMul a b) = equiv a * equiv b

theorem exists_fieldCopy : ∃ (K : Type) (_ : Field K), Nonempty (FieldCopy K) :=
  ⟨FieldElement, tableField, ⟨@FieldCopy.mk _ tableField (Equiv.refl Byte) (fun _ _ => rfl) fun _ _ => rfl⟩⟩

section
variable {K : Type} [Field K] (φ : FieldCopy K)

namespace FieldCopy

theorem map_zero : φ.equiv 0#8 = 0 := by
  have h := φ.map_xor 0#8 0#8
  rwa [BitVec.xor_self, left_eq_add] at h

theorem map_xorSum (k : Nat) (f : Nat → Byte) : φ.equiv (xorSum k f) = ∑ i : Fin k, φ.equiv (f i) := by
  induction k with
  | zero => exact φ.map_zero
  | succ k ih => rw [xorSum, φ.map_xor, ih, Fin.sum_univ_castSucc]; rfl

/-! ### Rows as vectors -/

/-- The first n bytes of a row as a vector. -/
def vec (n : Nat) (row : List Byte) : Fin n → K := fun j => φ.equiv (row.getD j 0#8)

theorem vec_eq_zero {n : Nat} {row : List Byte} (h : ∀ j < n, row.getD j 0#8 = 0#8) : φ.vec n row = 0 :=
  funext fun j => (congrArg φ.equiv (h j j.isLt)).trans φ.map_zero

/-- The row with f times another row added. -/
theorem vec_of_added {n : Nat} {f : Byte} {row dst src : List Byte}
    (h : ∀ j < n, row.getD j 0#8 = dst.getD j 0#8 ^^^ gfMul f (src.getD j 0#8)) :
    φ.vec n row = φ.vec n dst + φ.equiv f • φ.vec n src := by
  funext j
  rw [vec, h j j.isLt, φ.map_xor, φ.map_gfMul]
  rfl

/-- A combination of rows, byte by byte, is the linear combination of their vectors. -/
theorem vec_eq_sum_iff {n : Nat} {v fs : List Byte} {rows : List (List Byte)} :
    (∀ j < n, v.getD j 0#8 = rowSum fs rows j) ↔
      φ.vec n v = ∑ i : Fin rows.length, φ.equiv (fs.getD i 0#8) • φ.vec n rows[i] := by
  rw [funext_iff, Fin.forall_iff]
  refine forall₂_congr fun j hj => ?_
  rw [← φ.equiv.apply_eq_iff_eq, rowSum, φ.map_xorSum, Finset.sum_apply, vec]
  refine Eq.congr_right (Finset.sum_congr rfl fun i _ => ?_)
  rw [← gfMul_eq_fieldProduct, φ.map_gfMul, matEntry, matRow_eq_getElem i.isLt]
  rfl

/-- Every family of field elements is a list of factors. -/
theorem exists_factors {k : Nat} (c : Fin k → K) :
    ∃ fs : List Byte, fs.length = k ∧ ∀ i : Fin k, φ.equiv (fs.getD i 0#8) = c i := by
  refine ⟨List.ofFn fun i => φ.equiv.symm (c i), List.length_ofFn, fun i => ?_⟩
  rw [List.getD_eq_getElem _ _ (by rw [List.length_ofFn]; exact i.isLt), List.getElem_ofFn, Equiv.apply_symm_apply]

/-! ### The row space -/

/-- The span of the rows' first n bytes. -/
def rowSpace (n : Nat) (rows : List (List Byte)) : Submodule K (Fin n → K) :=
  Submodule.span K (φ.vec n '' {row | row ∈ rows})

theorem rowSpace_eq_span_range (n : Nat) (rows : List (List Byte)) :
    φ.rowSpace n rows = Submodule.span K (Set.range fun i : Fin rows.length => φ.vec n rows[i]) := by
  rw [rowSpace]
  congr 1
  ext x
  simp [List.mem_iff_getElem, Fin.exists_iff]

theorem vec_mem_rowSpace {n : Nat} {row : List Byte} {rows : List (List Byte)} (h : row ∈ rows) :
    φ.vec n row ∈ φ.rowSpace n rows :=
  Submodule.subset_span (Set.mem_image_of_mem _ h)

theorem rowSpace_le {n : Nat} {rows : List (List Byte)} {W : Submodule K (Fin n → K)}
    (h : ∀ row ∈ rows, φ.vec n row ∈ W) : φ.rowSpace n rows ≤ W :=
  Submodule.span_le.2 (Set.image_subset_iff.2 h)

theorem rowSpace_mono {n : Nat} {rows rows' : List (List Byte)} (h : rows ⊆ rows') :
    φ.rowSpace n rows ≤ φ.rowSpace n rows' :=
  φ.rowSpace_le fun _ hrow => φ.vec_mem_rowSpace (h hrow)

theorem rowSpace_cons (n : Nat) (row : List Byte) (rows : List (List Byte)) :
    φ.rowSpace n (row :: rows) = Submodule.span K {φ.vec n row} ⊔ φ.rowSpace n rows := by
  rw [rowSpace, rowSpace, ← Submodule.span_union, ← Set.image_singleton, ← Set.image_union]
  congr 2
  ext r
  exact List.mem_cons

/-- R182: the combinations of the rows are the vectors of the row space. -/
theorem isCombination_iff {n : Nat} {v : List Byte} {rows : List (List Byte)} :
    IsCombination n v rows ↔ φ.vec n v ∈ φ.rowSpace n rows := by
  rw [rowSpace_eq_span_range, Submodule.mem_span_range_iff_exists_fun]
  constructor
  · rintro ⟨fs, -, h⟩
    exact ⟨_, (φ.vec_eq_sum_iff.1 h).symm⟩
  · rintro ⟨c, h⟩
    obtain ⟨fs, hlen, hfs⟩ := φ.exists_factors c
    exact ⟨fs, hlen, φ.vec_eq_sum_iff.2 (by simp only [hfs, h])⟩

theorem vec_image_eraseIdx (n : Nat) (rows : List (List Byte)) (k : Fin rows.length) :
    φ.vec n '' {row | row ∈ rows.eraseIdx k} =
      (fun i : Fin rows.length => φ.vec n rows[i]) '' (Set.univ \ {k}) := by
  ext x
  simp only [Set.mem_image, Set.mem_ofPred_eq, List.mem_eraseIdx_iff_getElem, Set.mem_sdiff, Set.mem_univ, true_and,
    Set.mem_singleton_iff]
  constructor
  · rintro ⟨_, ⟨i, hi, hik, rfl⟩, rfl⟩
    exact ⟨⟨i, hi⟩, fun h => hik (congrArg Fin.val h), rfl⟩
  · rintro ⟨i, hik, rfl⟩
    exact ⟨_, ⟨i, i.isLt, fun h => hik (Fin.ext h), rfl⟩, rfl⟩

/-- R182: rows no one of which is a combination of the others are linearly independent. -/
theorem noRowIsCombination_iff {n : Nat} {rows : List (List Byte)} :
    NoRowIsCombination n rows ↔ LinearIndependent K fun i : Fin rows.length => φ.vec n rows[i] := by
  rw [linearIndependent_iff_notMem_span, NoRowIsCombination, Fin.forall_iff]
  refine forall₂_congr fun k hk => not_congr ?_
  rw [φ.isCombination_iff, rowSpace, φ.vec_image_eraseIdx n rows ⟨k, hk⟩, matRow_eq_getElem hk]
  rfl

/-! ### Its dimension -/

theorem finrank_of_noRowIsCombination {n : Nat} {rows : List (List Byte)} (h : NoRowIsCombination n rows) :
    Module.finrank K (φ.rowSpace n rows) = rows.length := by
  rw [rowSpace_eq_span_range, finrank_span_eq_card (φ.noRowIsCombination_iff.1 h), Fintype.card_fin]

include φ in
/-- A row that is no combination of independent rows is independent of them. -/
theorem noRowIsCombination_cons {n : Nat} {row : List Byte} {rows : List (List Byte)}
    (h : NoRowIsCombination n rows) (hrow : ¬ IsCombination n row rows) : NoRowIsCombination n (row :: rows) := by
  rw [φ.noRowIsCombination_iff] at h ⊢
  rw [φ.isCombination_iff, rowSpace_eq_span_range] at hrow
  have hcons : (fun i : Fin (row :: rows).length => φ.vec n (row :: rows)[i]) =
      Fin.cons (φ.vec n row) fun i : Fin rows.length => φ.vec n rows[i] :=
    funext fun i => i.cases rfl fun _ => rfl
  rw [hcons]
  exact h.finCons hrow

theorem rowSpace_cons_of_isCombination {n : Nat} {row : List Byte} {rows : List (List Byte)}
    (h : IsCombination n row rows) : φ.rowSpace n (row :: rows) = φ.rowSpace n rows := by
  rw [rowSpace_cons, sup_eq_right, Submodule.span_singleton_le_iff_mem]
  exact φ.isCombination_iff.1 h

/-- Some of the rows are independent and span the row space. -/
theorem exists_independent_sublist (n : Nat) (rows : List (List Byte)) :
    ∃ sub : List (List Byte), sub.Sublist rows ∧ NoRowIsCombination n sub ∧ φ.rowSpace n sub = φ.rowSpace n rows := by
  induction rows with
  | nil => exact ⟨[], List.Sublist.refl _, fun k hk => absurd hk k.not_lt_zero, rfl⟩
  | cons row rows ih =>
    obtain ⟨sub, hsub, hind, hspace⟩ := ih
    by_cases hrow : IsCombination n row sub
    · refine ⟨sub, hsub.cons row, hind, ?_⟩
      rw [φ.isCombination_iff, hspace, ← φ.isCombination_iff] at hrow
      rw [hspace, φ.rowSpace_cons_of_isCombination hrow]
    · exact ⟨row :: sub, hsub.cons_cons row, φ.noRowIsCombination_cons hind hrow, by
        rw [rowSpace_cons, hspace, ← rowSpace_cons]⟩

/-- The dimension of the row space is the rank as R182 defines it. -/
theorem isRowRank_finrank (n : Nat) (rows : List (List Byte)) :
    IsRowRank n rows (Module.finrank K (φ.rowSpace n rows)) := by
  obtain ⟨sub, hsub, hind, hspace⟩ := φ.exists_independent_sublist n rows
  refine ⟨⟨sub, hsub, by rw [← hspace, φ.finrank_of_noRowIsCombination hind], hind⟩, fun sub' hsub' hind' => ?_⟩
  rw [← φ.finrank_of_noRowIsCombination hind']
  exact Submodule.finrank_mono (φ.rowSpace_mono hsub'.subset)

/-- A further row that is no combination of the rows raises the dimension by one. -/
theorem finrank_rowSpace_cons {n : Nat} {row : List Byte} {rows : List (List Byte)} (h : ¬ IsCombination n row rows) :
    Module.finrank K (φ.rowSpace n (row :: rows)) = Module.finrank K (φ.rowSpace n rows) + 1 := by
  obtain ⟨sub, -, hind, hspace⟩ := φ.exists_independent_sublist n rows
  have hrow : ¬ IsCombination n row sub := by rwa [φ.isCombination_iff, hspace, ← φ.isCombination_iff]
  rw [rowSpace_cons, ← hspace, ← rowSpace_cons, φ.finrank_of_noRowIsCombination (φ.noRowIsCombination_cons hind hrow),
    φ.finrank_of_noRowIsCombination hind, List.length_cons]

/-- Zero rows at the end add nothing to the row space. -/
theorem rowSpace_take {n k : Nat} {rows : List (List Byte)}
    (h : ∀ r < rows.length, k ≤ r → ∀ j < n, matEntry rows r j = 0#8) :
    φ.rowSpace n (rows.take k) = φ.rowSpace n rows := by
  refine le_antisymm (φ.rowSpace_mono (List.take_subset k rows)) (φ.rowSpace_le fun row hrow => ?_)
  obtain ⟨r, hr, rfl⟩ := List.getElem_of_mem hrow
  by_cases hk : k ≤ r
  · rw [φ.vec_eq_zero fun j hj => by rw [← matRow_eq_getElem hr]; exact h r hr hk j hj]
    exact Submodule.zero_mem _
  · exact φ.vec_mem_rowSpace (List.mem_take_iff_getElem.2 ⟨r, by omega, rfl⟩)

end FieldCopy
end

end Sys2Proof.Machine
end

section

/-! ## The rank pass computes the dimension of the row space (42_decoder.md R182, R183, R203)

A pivoting step keeps the row space, and the pivot rows stay independent already in the columns the pass has seen; at
the end the other rows are zero there. -/

namespace Sys2Proof.Machine

section
variable {K : Type} [Field K] (φ : FieldCopy K)

namespace FieldCopy

theorem vec_matRow_mem {n r : Nat} {rows : List (List Byte)} (h : r < rows.length) :
    φ.vec n (matRow rows r) ∈ φ.rowSpace n rows := by
  rw [matRow_eq_getElem h]
  exact φ.vec_mem_rowSpace (List.getElem_mem h)

theorem rowSpace_le_of_matRow {n : Nat} {rows : List (List Byte)} {W : Submodule K (Fin n → K)}
    (h : ∀ r < rows.length, φ.vec n (matRow rows r) ∈ W) : φ.rowSpace n rows ≤ W := by
  refine φ.rowSpace_le fun row hrow => ?_
  obtain ⟨r, hr, rfl⟩ := List.getElem_of_mem hrow
  exact matRow_eq_getElem hr ▸ h r hr

/-! ### A pivoting step -/

/-- A row after a pivoting step is the row swapped into its place with a multiple of the pivot row added. -/
theorem vec_pivotBelow {n r p col k : Nat} {m : List (List Byte)} (h : MatShape n n m) (hr : r < n) (hp : p < n)
    (hcol : col < n) (hzero : ∀ j < col, matEntry m p j = 0#8) (hk : k < n) :
    φ.vec n (matRow (pivotBelow m r p col) k) =
      φ.vec n (matRow m (Equiv.swap r p k)) +
        φ.equiv (if r < k then gfDiv (matEntry m (Equiv.swap r p k) col) (matEntry m p col) else 0#8) •
          φ.vec n (matRow m p) := by
  refine φ.vec_of_added fun j _ => (matEntry_pivotBelow h hr hp hcol hk j).trans ?_
  change matEntry m _ j ^^^ _ = matEntry m _ j ^^^ gfMul _ (matEntry m p j)
  congr 1
  by_cases hj : j < col
  · rw [if_neg (by omega), hzero j hj, gfMul_zero]
  · by_cases hrk : r < k
    · rw [if_pos ⟨hrk, by omega⟩, if_pos hrk]
    · rw [if_neg (by omega), if_neg hrk, zero_gfMul]

theorem rowSpace_pivotBelow {n r p col : Nat} {m : List (List Byte)} (h : MatShape n n m) (hr : r < n) (hp : p < n)
    (hcol : col < n) (hzero : ∀ j < col, matEntry m p j = 0#8) :
    φ.rowSpace n (pivotBelow m r p col) = φ.rowSpace n m := by
  have hrow {k : Nat} (hk : k < n) := φ.vec_pivotBelow h hr hp hcol hzero hk
  have hlen := (h.pivotBelow hr hp col).1
  have hpivot : φ.vec n (matRow m p) ∈ φ.rowSpace n (pivotBelow m r p col) := by
    have heq := hrow hr
    rw [Equiv.swap_apply_left, if_neg (Nat.lt_irrefl r), φ.map_zero, zero_smul, add_zero] at heq
    exact heq ▸ φ.vec_matRow_mem (hlen ▸ hr)
  refine le_antisymm (φ.rowSpace_le_of_matRow fun k hk => ?_) (φ.rowSpace_le_of_matRow fun q hq => ?_)
  · rw [hrow (hlen ▸ hk)]
    exact Submodule.add_mem _ (φ.vec_matRow_mem (h.1 ▸ swap_lt hr hp (hlen ▸ hk)))
      (Submodule.smul_mem _ _ (φ.vec_matRow_mem (h.1 ▸ hp)))
  · have hk : Equiv.swap r p q < n := swap_lt hr hp (h.1 ▸ hq)
    have heq := hrow hk
    rw [Equiv.swap_apply_self] at heq
    rw [← sub_eq_of_eq_add heq]
    exact Submodule.sub_mem _ (φ.vec_matRow_mem (hlen ▸ hk)) (Submodule.smul_mem _ _ hpivot)

end FieldCopy

/-! ### The pivot rows -/

/-- Only the zero combination of the first k rows is zero in the first `cols` columns. -/
def RowsIndependent (cols k : Nat) (m : List (List Byte)) : Prop :=
  ∀ f : Nat → Byte, (∀ j < cols, xorSum k (fun i => gfMul (f i) (matEntry m i j)) = 0#8) → ∀ i < k, f i = 0#8

theorem RowsIndependent.succ_cols {cols k : Nat} {m : List (List Byte)} (h : RowsIndependent cols k m) :
    RowsIndependent (cols + 1) k m :=
  fun f hf => h f fun j hj => hf j (Nat.lt_succ_of_lt hj)

/-- A row that is zero in the columns before and not in the next one is independent of the rows above it. -/
theorem RowsIndependent.succ {cols k : Nat} {m m' : List (List Byte)} (h : RowsIndependent cols k m)
    (hsame : ∀ i < k, ∀ j, matEntry m' i j = matEntry m i j) (hzero : ∀ j < cols, matEntry m' k j = 0#8)
    (hne : matEntry m' k cols ≠ 0#8) : RowsIndependent (cols + 1) (k + 1) m' := by
  intro f hf
  have hsum (j : Nat) : xorSum k (fun i => gfMul (f i) (matEntry m' i j)) =
      xorSum k fun i => gfMul (f i) (matEntry m i j) := xorSum_congr fun i hi => by rw [hsame i hi j]
  have habove : ∀ i < k, f i = 0#8 := h f fun j hj => by
    have hj' := hf j (Nat.lt_succ_of_lt hj)
    rwa [xorSum, hsum, hzero j hj, gfMul_zero, BitVec.xor_zero] at hj'
  have hlast : f k = 0#8 := by
    have hcol := hf cols cols.lt_succ_self
    rw [xorSum, xorSum_eq_zero fun i hi => by rw [habove i hi, zero_gfMul], BitVec.zero_xor] at hcol
    exact (eq_zero_or_eq_zero_of_gfMul_eq_zero hcol).resolve_right hne
  intro i hi
  by_cases hik : i = k
  · rw [hik, hlast]
  · exact habove i (by omega)

include φ in
theorem FieldCopy.noRowIsCombination_of_rowsIndependent {n : Nat} {rows : List (List Byte)}
    (h : RowsIndependent n rows.length rows) : NoRowIsCombination n rows := by
  rw [φ.noRowIsCombination_iff, Fintype.linearIndependent_iff]
  intro g hg i
  obtain ⟨fs, -, hfs⟩ := φ.exists_factors g
  have hvec : φ.vec n [] = ∑ i : Fin rows.length, φ.equiv (fs.getD i 0#8) • φ.vec n rows[i] := by
    simp only [hfs, hg]
    exact φ.vec_eq_zero fun _ _ => rfl
  have hzero := h (fun i => fs.getD i 0#8) (fun j hj => ?_) i i.isLt
  · rw [← hfs i, hzero, φ.map_zero]
  · simp only [gfMul_eq_fieldProduct]
    exact (φ.vec_eq_sum_iff.2 hvec j hj).symm

/-! ### The pass -/

/-- The scratch matrix after `cols` columns with k pivots among them. -/
structure RankReduced (n cols k : Nat) (c m : List (List Byte)) : Prop where
  shape : MatShape n n m
  rankLe : k ≤ cols
  below : ∀ r < n, k ≤ r → ∀ j < cols, matEntry m r j = 0#8
  independent : RowsIndependent cols k m
  space : φ.rowSpace n m = φ.rowSpace n c

variable {φ}

/-- A column without a pivot is zero from the pivot rows down; with full rank there is no row there. -/
theorem RankReduced.succ_cols {n cols k : Nat} {c m : List (List Byte)} (h : RankReduced φ n cols k c m)
    (hzero : ∀ r, k ≤ r → r < n → matEntry m r cols = 0#8) : RankReduced φ n (cols + 1) k c m where
  shape := h.shape
  rankLe := Nat.le_succ_of_le h.rankLe
  below := fun r hr hkr j hj => by
    by_cases hjc : j = cols
    · rw [hjc, hzero r hkr hr]
    · exact h.below r hr hkr j (by omega)
  independent := h.independent.succ_cols
  space := h.space

theorem RankReduced.pivotBelow {n cols k p : Nat} {c m : List (List Byte)} (h : RankReduced φ n cols k c m)
    (hcols : cols < n) (hle : k ≤ p) (hp : p < n) (hne : matEntry m p cols ≠ 0#8) :
    RankReduced φ n (cols + 1) (k + 1) c (pivotBelow m k p cols) := by
  have hk : k < n := Nat.lt_of_le_of_lt hle hp
  have hentry {r : Nat} (hr : r < n) := matEntry_pivotBelow h.shape hk hp hcols hr
  have hpzero : ∀ j < cols, matEntry m p j = 0#8 := h.below p hp hle
  have hpivot (j : Nat) : matEntry (Machine.pivotBelow m k p cols) k j = matEntry m p j := by
    rw [hentry hk, if_neg (by omega), BitVec.xor_zero, Equiv.swap_apply_left]
  refine ⟨h.shape.pivotBelow hk hp cols, Nat.succ_le_succ h.rankLe, fun r hr hkr j hj => ?below, ?independent,
    (φ.rowSpace_pivotBelow h.shape hk hp hcols hpzero).trans h.space⟩
  case below =>
    rw [hentry hr]
    by_cases hjc : j = cols
    · rw [hjc, if_pos ⟨hkr, le_rfl⟩, gfDiv_gfMul _ hne, BitVec.xor_self]
    · have hswap : k ≤ Equiv.swap k p r := by
        rw [Equiv.swap_apply_def]
        split_ifs <;> omega
      rw [if_neg (by omega), BitVec.xor_zero, h.below _ (swap_lt hk hp hr) hswap j (by omega)]
  case independent =>
    refine h.independent.succ (fun i hi j => ?_) (fun j hj => (hpivot j).trans (hpzero j hj))
      ((hpivot cols).trans_ne hne)
    rw [hentry (by omega), if_neg (by omega), BitVec.xor_zero, Equiv.swap_apply_of_ne_of_ne (by omega) (by omega)]

variable (φ)

theorem rankAfter_reduced {n : Nat} {c : List (List Byte)} (h : MatShape n n c) {cols : Nat} (hcols : cols ≤ n) :
    RankReduced φ n cols (rankAfter n c cols).2 c (rankAfter n c cols).1 := by
  induction cols with
  | zero => exact ⟨h, le_rfl, fun _ _ _ j hj => absurd hj j.not_lt_zero, fun _ _ i hi => absurd hi i.not_lt_zero, rfl⟩
  | succ cols ih =>
    rw [rankAfter_succ]
    obtain ⟨hw, hnone⟩ | ⟨p, hle, hp, hne, hw⟩ := rankColumn_cases n cols (rankAfter n c cols)
    · rw [hw]
      refine (ih (by omega)).succ_cols fun r hkr hr => ?_
      obtain hfull | hzero := hnone
      · omega
      · exact hzero r hkr hr
    · rw [hw]
      exact (ih (by omega)).pivotBelow hcols hle hp hne

theorem matEntry_take {k i : Nat} (m : List (List Byte)) (hi : i < k) (j : Nat) :
    matEntry (m.take k) i j = matEntry m i j := by
  simp only [matEntry, matRow, List.getD_eq_getElem?_getD, List.getElem?_take_of_lt hi]

/-- R182, R183: the rank pass computes the dimension of the row space. -/
theorem rankOf_eq_finrank {n : Nat} {c : List (List Byte)} (h : MatShape n n c) :
    rankOf n c = Module.finrank K (φ.rowSpace n c) := by
  obtain ⟨hshape, hle, hbelow, hind, hspace⟩ := rankAfter_reduced φ h le_rfl
  rw [← rankOf_eq] at hle hbelow hind
  have hlen : ((rankAfter n c n).1.take (rankOf n c)).length = rankOf n c := by
    rw [List.length_take, hshape.1, Nat.min_eq_left hle]
  have htake : NoRowIsCombination n ((rankAfter n c n).1.take (rankOf n c)) := by
    refine φ.noRowIsCombination_of_rowsIndependent fun f hf => ?_
    rw [hlen] at hf ⊢
    refine hind f fun j hj => ?_
    rw [← hf j hj]
    exact xorSum_congr fun i hi => by rw [matEntry_take _ hi]
  rw [← hspace, ← φ.rowSpace_take (k := rankOf n c) fun r hr => hbelow r (hshape.1 ▸ hr),
    φ.finrank_of_noRowIsCombination htake, hlen]

end

/-- Settles O42: the dimension of the row space is the largest number of independent rows. -/
theorem rankIsTheRowSpaceDimension : Obligations.RankIsTheRowSpaceDimension := by
  intro n c h
  obtain ⟨K, _, ⟨φ⟩⟩ := exists_fieldCopy
  rw [rankOf_eq_finrank φ h]
  exact φ.isRowRank_finrank n c

/-- A zero column puts its unit column in the kernel. -/
theorem not_trivialKernel_of_column_zero {n k : Nat} {c : List (List Byte)} (hk : k < n)
    (hzero : ∀ r < n, matEntry c r k = 0#8) : ¬ TrivialKernel n c := by
  intro hkernel
  have hone := hkernel (fun j => if j = k then 0x01#8 else 0#8) (fun r hr => ?_) k hk
  · rw [if_pos rfl] at hone
    exact absurd hone (by decide)
  · refine xorSum_eq_zero fun j _ => ?_
    dsimp only
    split
    case isTrue hj => rw [hj, hzero r hr, zero_gfMul]
    case isFalse => exact gfMul_zero _

/-- Settles O47: with full rank the kernel would be trivial. -/
theorem underfilledGenerationHasNoFullRank : Obligations.UnderfilledGenerationHasNoFullRank := by
  intro n k c h hk hzero
  refine Nat.lt_of_le_of_ne (rankAfter_le n c n) fun hfull => ?_
  exact not_trivialKernel_of_column_zero hk hzero (trivialKernel_of_rankOf_eq h hfull)

end Sys2Proof.Machine
end

section

/-! ## decode() solves the stored system (42_decoder.md R194)

A pivoting step of decode() changes C and Y alike and so keeps the solutions of C * X = Y, column by column of X. With
the identity in C the only solution is Y. -/

namespace Sys2Proof.Machine

/-- The column x solves C * x = column j of Y. -/
def SolvesColumn (n : Nat) (c y : List (List Byte)) (j : Nat) (x : Nat → Byte) : Prop :=
  ∀ r < n, rowDot n c x r = matEntry y r j

theorem solves_iff_columns {n p : Nat} {c x y : List (List Byte)} :
    Solves n p c x y ↔ ∀ j < p, SolvesColumn n c y j fun k => matEntry x k j := by
  simp only [Solves, SolvesColumn, rowDot, gfMul_eq_fieldProduct]
  exact ⟨fun h j hj r hr => h r hr j hj, fun h r hr j hj => h j hj r hr⟩

/-- A pivoting step on both matrices keeps the solutions. -/
theorem solvesColumn_pivotStep {n p i q : Nat} {v : Byte} {fs : List Byte} {c y : List (List Byte)}
    (hc : MatShape n n c) (hy : MatShape n p y) (hi : i < n) (hq : q < n) (hv : v ≠ 0#8) (j : Nat) (x : Nat → Byte) :
    SolvesColumn n (pivotStep i q v fs c) (pivotStep i q v fs y) j x ↔ SolvesColumn n c y j x := by
  simp only [SolvesColumn, ← BitVec.xor_eq_zero_iff (y := matEntry _ _ j)]
  refine forall_eq_zero_iff_of_pivoting (f := fun r => gfMul (fs.getD r 0#8) v) hi hq hv ?pivot fun r hr hri => ?other
  case pivot =>
    rw [rowDot_of_scaled (fun k _ => matEntry_pivotStep_self hc hi hq k), matEntry_pivotStep_self hy hi hq, gfMul_xor]
  case other =>
    rw [rowDot_of_added (fun k _ => (matEntry_pivotStep_of_ne hc hi hq hr hri k).trans (by rw [← gfMul_assoc])),
      matEntry_pivotStep_of_ne hy hi hq hr hri, ← gfMul_assoc, gfMul_xor, xor_xor_xor_comm]

theorem solvesColumn_eliminationStep {n p i : Nat} {w : Elimination} (hc : MatShape n n w.c) (hy : MatShape n p w.y)
    (hi : i < n) (j : Nat) (x : Nat → Byte) :
    SolvesColumn n (eliminationStep n w i).c (eliminationStep n w i).y j x ↔ SolvesColumn n w.c w.y j x := by
  cases hw : w.aborted with
  | true => rw [eliminationStep, if_pos hw]
  | false =>
    obtain ⟨-, habort⟩ | ⟨q, -, hq, -, hpivot⟩ := eliminationStep_cases (n := n) (i := i) hw
    · rw [habort]
    · rw [hpivot]
      exact solvesColumn_pivotStep hc hy hi hq (gfInv_ne_zero _) j x

/-- decode() keeps the solutions, aborted or not. -/
theorem solvesColumn_eliminationAfter {n p i : Nat} {c y : List (List Byte)} (hc : MatShape n n c)
    (hy : MatShape n p y) (hi : i ≤ n) (j : Nat) (x : Nat → Byte) :
    SolvesColumn n (eliminationAfter n c y i).c (eliminationAfter n c y i).y j x ↔ SolvesColumn n c y j x := by
  induction i with
  | zero => exact Iff.rfl
  | succ i ih =>
    obtain ⟨hwc, hwy⟩ := eliminationAfter_shape hc hy (Nat.le_of_succ_le hi)
    rw [eliminationAfter_succ, solvesColumn_eliminationStep hwc hwy hi, ih (Nat.le_of_succ_le hi)]

theorem rowDot_identityMatrix {n r : Nat} (x : Nat → Byte) (hr : r < n) : rowDot n (identityMatrix n) x r = x r := by
  rw [rowDot, xorSum_eq_single hr fun k hk hkr => ?_]
  · rw [matEntry_identityMatrix hr hr, if_pos rfl, one_gfMul]
  · rw [matEntry_identityMatrix hr hk, if_neg (Ne.symm hkr), zero_gfMul]

/-- R194 (c): at full rank the solutions are the matrices that agree with what decode() leaves in Y. -/
theorem solves_iff_of_full {n p : Nat} {c x y : List (List Byte)} (hc : MatShape n n c) (hy : MatShape n p y)
    (hfull : rankOf n c = n) :
    Solves n p c x y ↔ ∀ r < n, ∀ j < p, matEntry x r j = matEntry (gaussJordan n c y).y r j := by
  obtain ⟨-, hidentity, -⟩ := gaussJordan_of_full hc hy hfull
  have hcolumn (j : Nat) (x : Nat → Byte) :
      SolvesColumn n c y j x ↔ ∀ r < n, x r = matEntry (gaussJordan n c y).y r j := by
    rw [← solvesColumn_eliminationAfter hc hy le_rfl, ← gaussJordan_eq, hidentity]
    exact forall₂_congr fun r hr => by rw [rowDot_identityMatrix x hr]
  simp only [solves_iff_columns, hcolumn]
  exact ⟨fun h r hr j hj => h j hj r hr, fun h j hj r hr => h r hr j hj⟩

/-- Settles O44: a matrix of full rank has a trivial kernel, so every column finds a pivot. -/
theorem decodeNeverAbortsAtFullRank : Obligations.DecodeNeverAbortsAtFullRank := by
  intro n p c y hc hy hfull
  obtain ⟨hgo, hidentity, -⟩ := gaussJordan_of_full hc hy hfull
  exact ⟨hgo, hidentity⟩

/-- Settles O45: decode() keeps the solutions and ends with the identity in C. -/
theorem decodeComputesTheUniqueSolution : Obligations.DecodeComputesTheUniqueSolution := by
  intro n p c y hc hy hfull
  obtain ⟨-, -, hshape⟩ := gaussJordan_of_full hc hy hfull
  exact ⟨(solves_iff_of_full hc hy hfull).2 fun _ _ _ _ => rfl,
    fun x hx hsolves => hx.ext hshape ((solves_iff_of_full hc hy hfull).1 hsolves)⟩

end Sys2Proof.Machine
end

section

/-! ## What decode() and DEC_PROCESS store (42_decoder.md R184, R187, R192 to R197) -/

namespace Sys2Proof.Machine

/-! ### The corner of a byte space (20_memory.md R60) -/

theorem sameOutsideCorner_trans {m₁ m₂ m₃ : Memory} {stride rows cols : Nat}
    (h : SameOutsideCorner m₁ m₂ stride rows cols) (h' : SameOutsideCorner m₂ m₃ stride rows cols) :
    SameOutsideCorner m₁ m₃ stride rows cols :=
  fun a ha => (h' a ha).trans (h a ha)

theorem sameOutsideCorner_writeRow {stride rows cols r : Nat} {bytes : List Byte} (m : Memory)
    (hlen : bytes.length = cols) (hr : r < rows) :
    SameOutsideCorner m (m.writeRow stride r bytes) stride rows cols := by
  intro a ha
  have hrow := ha r hr
  rw [Memory.read_writeRow, hlen, if_neg (by omega)]

theorem sameOutsideCorner_writeRows_from {stride rows cols r : Nat} {w : List (List Byte)} (m : Memory)
    (hlen : ∀ row ∈ w, row.length = cols) (hr : r + w.length ≤ rows) :
    SameOutsideCorner m (m.writeRows stride r w) stride rows cols := by
  induction w generalizing m r with
  | nil => exact fun _ _ => rfl
  | cons row rest ih =>
    rw [List.length_cons] at hr
    obtain ⟨hrow, hrest⟩ := List.forall_mem_cons.1 hlen
    exact sameOutsideCorner_trans (sameOutsideCorner_writeRow m hrow (by omega)) (ih _ hrest (by omega))

/-- A matrix written from row 0 on changes its corner only. -/
theorem sameOutsideCorner_writeRows {stride rows cols : Nat} {w : List (List Byte)} (m : Memory)
    (hw : MatShape rows cols w) : SameOutsideCorner m (m.writeRows stride 0 w) stride rows cols :=
  sameOutsideCorner_writeRows_from m hw.2 (by rw [hw.1, Nat.zero_add])

/-! ### What decode() stores -/

/-- The result of the elimination that decode() runs in a state (42_decoder.md R192). -/
def State.eliminated (s : State) : Elimination := gaussJordan s.dec.n.toNat s.decMatrix s.decPayloads

theorem decodeRun_of_aborted {s : State} (h : s.eliminated.aborted = true) :
    decodeRun s = setSing (storeElimination s.eliminated s) := if_pos h

theorem decodeRun_of_not_aborted {s : State} (h : s.eliminated.aborted = false) :
    decodeRun s = finishDecode s.eliminated (storeElimination s.eliminated s) := if_neg (ne_true_of_eq_false h)

theorem eliminationStored_storeElimination {s : State} (hn : s.dec.n.toNat ≤ s.nMax) (hp : s.dec.p.toNat ≤ s.pMax) :
    EliminationStored s (storeElimination s.eliminated s) := by
  obtain ⟨hc, hy⟩ := gaussJordan_shape (decMatrix_shape s) (decPayloads_shape s)
  exact ⟨matrix_writeRows _ hc hn, matrix_writeRows _ hy hp, sameOutsideCorner_writeRows _ hc,
    sameOutsideCorner_writeRows _ hy⟩

theorem packetsStored_finishDecode {s : State} (hp : s.dec.p.toNat ≤ s.pMax) :
    PacketsStored s (finishDecode s.eliminated (storeElimination s.eliminated s)) := by
  obtain ⟨-, hy⟩ := gaussJordan_shape (decMatrix_shape s) (decPayloads_shape s)
  refine ⟨fun k hk => (matRow_matrix _ hk).symm.trans ?_, sameOutsideCorner_writeRows _ hy⟩
  exact congrArg (matRow · k) (matrix_writeRows _ hy hp)

/-- Settles O51: DEC_GET answers from the state decode() leaves, aborted or not. -/
theorem decGetRunsTheLazyDecode : Obligations.DecGetRunsTheLazyDecode := by
  intro s idx hconf hstate hn hp
  have hget : exec (.decGet idx) s = .next (decFetch idx (decodeRun s)) := by
    rw [exec_eq_next_effect, effect, decGet_of_configured idx hconf, lazyDecode, if_pos hstate]
  have hstored := eliminationStored_storeElimination hn hp
  have hpackets := packetsStored_finishDecode hp
  refine ⟨fun habort => ?aborts, fun hgo hidx => ?returns, fun hgo hidx => ?range⟩
  case aborts =>
    have hrun := decodeRun_of_aborted habort
    rw [decFetch_of_decodable idx (hrun ▸ hstate), hrun] at hget
    exact ⟨_, hget, rfl, hstored⟩
  case returns =>
    have hrun := decodeRun_of_not_aborted hgo
    rw [decFetch_of_decoded (hrun ▸ rfl) (hrun ▸ hidx), hrun] at hget
    refine ⟨_, hget, rfl, hstored, hpackets, fun j hj => ?_, fun a ha => read_writeBytes_decPacket_above _ idx ha⟩
    exact (read_writeBytes_decPacket (s := finishDecode s.eliminated (storeElimination s.eliminated s)) _ idx hj).trans
      (congrArg (List.getD · j 0#8) (hpackets.1 idx hidx))
  case range =>
    have hrun := decodeRun_of_not_aborted hgo
    rw [decFetch_of_out_of_range (hrun ▸ rfl) (hrun ▸ hidx), hrun] at hget
    exact ⟨_, hget, rfl, hstored, hpackets⟩

/-! ### The matrices with the packet (42_decoder.md R184) -/

theorem MatShape.set {rows cols i : Nat} {m : List (List Byte)} {row : List Byte} (h : MatShape rows cols m)
    (hrow : row.length = cols) : MatShape rows cols (m.set i row) := by
  refine ⟨(List.length_set ..).trans h.1, fun row' hmem => ?_⟩
  obtain hold | rfl := List.mem_or_eq_of_mem_set hmem
  · exact h.2 row' hold
  · exact hrow

theorem matEntry_set {m : List (List Byte)} {i : Nat} (hi : i < m.length) (row : List Byte) (r j : Nat) :
    matEntry (m.set i row) r j = if r = i then row.getD j 0#8 else matEntry m r j := by
  rw [matEntry, matRow_set hi, apply_ite (List.getD · j 0#8), matEntry]

theorem matrixWithPacket_shape (s : State) : MatShape s.dec.n.toNat s.dec.n.toNat s.matrixWithPacket :=
  (decMatrix_shape s).set (packetVector_length _ _)

theorem payloadsWithPacket_shape (s : State) : MatShape s.dec.n.toNat s.dec.p.toNat s.payloadsWithPacket :=
  (decPayloads_shape s).set (packetPayload_length _ _ _)

theorem packetVector_getD {n i : Nat} (ibuf : Memory) (hi : i < n) :
    (packetVector n ibuf).getD i 0#8 = if i < (packetCount ibuf).toNat then ibuf.read (8 + i) else 0#8 :=
  getD_map_range _ hi

theorem packetPayload_getD {p j : Nat} (n : Nat) (ibuf : Memory) (hj : j < p) :
    (packetPayload n p ibuf).getD j 0#8 = ibuf.read (8 + n + j) :=
  Memory.readBytes_getD _ _ _ _ hj

theorem PacketAccepted.free {s : State} (ha : PacketAccepted s) (h : DecInv s) : s.dec.rows < s.dec.n.toNat :=
  Nat.lt_of_le_of_ne h.rowsBound ha.freeRow

theorem PacketAccepted.collecting {s : State} (ha : PacketAccepted s) (h : DecInv s) : s.dec.state = .collecting :=
  h.collecting_of_ne_decoded ha.notDecoded

section
variable {s : State} (hfree : s.dec.rows < s.dec.n.toNat)
include hfree

theorem matEntry_matrixWithPacket (r j : Nat) :
    matEntry s.matrixWithPacket r j =
      if r = s.dec.rows then (packetVector s.dec.n.toNat s.ibuf).getD j 0#8 else matEntry s.decMatrix r j :=
  matEntry_set ((decMatrix_shape s).1.symm ▸ hfree) _ r j

theorem matEntry_payloadsWithPacket (r j : Nat) :
    matEntry s.payloadsWithPacket r j =
      if r = s.dec.rows then (packetPayload s.dec.n.toNat s.dec.p.toNat s.ibuf).getD j 0#8
      else matEntry s.decPayloads r j :=
  matEntry_set ((decPayloads_shape s).1.symm ▸ hfree) _ r j

theorem storePacket_decMatrix (hn : s.dec.n.toNat ≤ s.nMax) : (storePacket s).decMatrix = s.matrixWithPacket :=
  (decMatrix_shape (storePacket s)).ext (matrixWithPacket_shape s) fun r hr j hj =>
    (matEntry_matrix_writeRow (packetVector_length _ _) hn hr hj).trans (matEntry_matrixWithPacket hfree r j).symm

theorem storePacket_decPayloads (hp : s.dec.p.toNat ≤ s.pMax) : (storePacket s).decPayloads = s.payloadsWithPacket :=
  (decPayloads_shape (storePacket s)).ext (payloadsWithPacket_shape s) fun r hr j hj =>
    (matEntry_matrix_writeRow (packetPayload_length _ _ _) hp hr hj).trans (matEntry_payloadsWithPacket hfree r j).symm

end

/-! ### An accepted packet -/

/-- The state in which decode() runs inside DEC_PROCESS: the packet stored, the rank complete (42_decoder.md R184). -/
def completeState (s : State) : State :=
  { storePacket s with dec := { (storePacket s).dec with rank := s.dec.n.toNat, state := .decodable } }

theorem completeState_eliminated {s : State} (h : DecInv s) (hfree : s.dec.rows < s.dec.n.toNat) :
    (completeState s).eliminated = gaussJordan s.dec.n.toNat s.matrixWithPacket s.payloadsWithPacket := by
  rw [← storePacket_decMatrix hfree h.nBound, ← storePacket_decPayloads hfree h.pBound]
  rfl

theorem acceptPacket_of_not_full {s : State} (h : rankOf s.dec.n.toNat (storePacket s).decMatrix ≠ s.dec.n.toNat) :
    acceptPacket s = updateRank (storePacket s) := if_neg h

theorem acceptPacket_of_full {s : State} (h : rankOf s.dec.n.toNat (storePacket s).decMatrix = s.dec.n.toNat) :
    acceptPacket s = decodeRun (completeState s) := by
  refine (if_pos h).trans (congrArg decodeRun ?_)
  rw [completeState, ← h]
  rfl

theorem acceptPacket_rank (s : State) :
    (acceptPacket s).dec.rank = rankOf s.dec.n.toNat (storePacket s).decMatrix := by
  by_cases h : rankOf s.dec.n.toNat (storePacket s).decMatrix = s.dec.n.toNat
  · obtain ⟨-, -, -, -, hrank⟩ := decodeRun_dec (completeState s)
    rw [acceptPacket_of_full h, hrank, h]
    rfl
  · rw [acceptPacket_of_not_full h]
    rfl

theorem processResult_of_ne_decoded {old : Nat} {s : State} (h : s.dec.state ≠ .decoded) :
    processResult old s = if old < s.dec.rank then 3#32 else 1#32 := by
  rw [processResult, if_neg h]
  split <;> rfl

theorem processResult_of_decoded {old : Nat} {s : State} (h : s.dec.state = .decoded) (hrank : old < s.dec.rank) :
    processResult old s = 7#32 := by
  rw [processResult, if_pos h, if_pos hrank]

theorem processResult_bits (old : Nat) (s : State) :
    (processResult old s).getLsbD 0 = true ∧ (processResult old s).getLsbD 1 = decide (old < s.dec.rank) := by
  by_cases hrank : old < s.dec.rank
  · rw [processResult, if_pos hrank, decide_eq_true hrank]
    split <;> exact ⟨rfl, rfl⟩
  · rw [processResult, if_neg hrank, decide_eq_false hrank]
    split <;> exact ⟨rfl, rfl⟩

section
variable {s : State} (h : DecInv s) (ha : PacketAccepted s)
include h ha

theorem rank_lt_n : s.dec.rank < s.dec.n.toNat := Nat.lt_of_le_of_lt h.rankRows (ha.free h)

theorem acceptPacket_rank_eq : (acceptPacket s).dec.rank = rankOf s.dec.n.toNat s.matrixWithPacket := by
  rw [acceptPacket_rank, storePacket_decMatrix (ha.free h) h.nBound]

theorem decProcess_of_not_full (hrank : rankOf s.dec.n.toNat s.matrixWithPacket < s.dec.n.toNat) :
    decProcess s =
      ok (if s.dec.rank < rankOf s.dec.n.toNat s.matrixWithPacket then 3#32 else 1#32)
        (updateRank (storePacket s)) := by
  have hmatrix := storePacket_decMatrix (ha.free h) h.nBound
  rw [decProcess_of_accepted ha, acceptPacket_of_not_full (hmatrix ▸ hrank.ne),
    processResult_of_ne_decoded (s := updateRank (storePacket s)) ha.notDecoded, ← hmatrix]
  rfl

theorem decProcess_of_full (hfull : rankOf s.dec.n.toNat s.matrixWithPacket = s.dec.n.toNat) :
    decProcess s =
      ok 7#32 (finishDecode (completeState s).eliminated
        (storeElimination (completeState s).eliminated (completeState s))) := by
  obtain ⟨hgo, -, -⟩ := gaussJordan_of_full (matrixWithPacket_shape s) (payloadsWithPacket_shape s) hfull
  rw [← completeState_eliminated h (ha.free h)] at hgo
  have hmatrix := storePacket_decMatrix (ha.free h) h.nBound
  rw [decProcess_of_accepted ha, acceptPacket_of_full (hmatrix ▸ hfull), decodeRun_of_not_aborted hgo,
    processResult_of_decoded rfl (rank_lt_n h ha)]

end

/-- Settles O40: the packet's row is written in dec.C and in dec.Y, and the rank is that of the new matrix. -/
theorem decProcessStoresThePacket : Obligations.DecProcessStoresThePacket := by
  intro s h ha hrank
  have hfree := ha.free h
  have hmatrix := storePacket_decMatrix hfree h.nBound
  have hnewRank : (updateRank (storePacket s)).dec.rank = rankOf s.dec.n.toNat s.matrixWithPacket := by
    rw [← hmatrix]; rfl
  refine ⟨_, congrArg Host.Outcome.next (decProcess_of_not_full h ha hrank), ?frame, hnewRank, fun i hi => ?vector,
    fun j hj => ?payload, fun a hout => ?c, fun a hout => ?y⟩
  case frame => rw [← hnewRank]; rfl
  case vector =>
    rw [← packetVector_getD _ hi]
    exact (matEntry_matrix_writeRow (packetVector_length _ _) h.nBound hfree hi).trans (if_pos rfl)
  case payload =>
    rw [← packetPayload_getD _ _ hj]
    exact (matEntry_matrix_writeRow (packetPayload_length _ _ _) h.pBound hfree hj).trans (if_pos rfl)
  case c =>
    refine (Memory.read_writeRow _ _ _ _ _).trans (if_neg ?_)
    rw [packetVector_length]
    omega
  case y =>
    refine (Memory.read_writeRow _ _ _ _ _).trans (if_neg ?_)
    rw [packetPayload_length]
    omega

/-- What a decode() inside DEC_PROCESS leaves alone. -/
theorem ok_finishDecode_completeState (w : Elimination) (s : State) :
    ok 7#32 (finishDecode w (storeElimination w (completeState s))) =
      { s with
        status := 0x00#8
        result := 7#32
        dec :=
          { s.dec with
            c := (storeElimination w (completeState s)).dec.c
            y := (storeElimination w (completeState s)).dec.y
            out := s.dec.out.writeRows s.pMax 0 w.y
            rows := s.dec.rows + 1
            rank := s.dec.n.toNat
            state := .decoded } } := by
  unfold completeState storePacket
  rfl

/-- Settles O41: decode() runs on the matrices with the packet, whose rank is full. -/
theorem decProcessDecodesAtFullRank : Obligations.DecProcessDecodesAtFullRank := by
  intro s h ha hfull
  have hfree := ha.free h
  have hc := matrixWithPacket_shape s
  have hy := payloadsWithPacket_shape s
  have helim := completeState_eliminated h hfree
  obtain ⟨hmatrix, hpayloads, houtC, houtY⟩ :=
    eliminationStored_storeElimination (s := completeState s) h.nBound h.pBound
  obtain ⟨hpackets, houtOut⟩ := packetsStored_finishDecode (s := completeState s) h.pBound
  refine ⟨_, congrArg Host.Outcome.next (decProcess_of_full h ha hfull), ok_finishDecode_completeState _ s, ?identity,
    fun k hk => ?packets, ?solves,
    sameOutsideCorner_trans (sameOutsideCorner_writeRow _ (packetVector_length _ _) hfree) houtC,
    sameOutsideCorner_trans (sameOutsideCorner_writeRow _ (packetPayload_length _ _ _) hfree) houtY, houtOut⟩
  case identity => exact hmatrix.trans ((congrArg Elimination.c helim).trans (gaussJordan_of_full hc hy hfull).2.1)
  case packets => exact (hpackets k hk).trans (congrArg (matRow · k) hpayloads).symm
  case solves =>
    have hsolution := (decodeComputesTheUniqueSolution _ _ _ _ hc hy hfull).1
    rw [← helim] at hsolution
    exact hpayloads ▸ hsolution

/-! ### An innovative packet (42_decoder.md R187) -/

/-- The stored rows and the packet span the row space of the matrix with the packet. -/
theorem FieldCopy.rowSpace_matrixWithPacket {K : Type} [Field K] (φ : FieldCopy K) {s : State} (h : DecInv s)
    (hstate : s.dec.state = .collecting) (hfree : s.dec.rows < s.dec.n.toNat) :
    φ.rowSpace s.dec.n.toNat s.matrixWithPacket =
      φ.rowSpace s.dec.n.toNat (packetVector s.dec.n.toNat s.ibuf :: s.decMatrix.take s.dec.rows) := by
  have htake : s.matrixWithPacket.take (s.dec.rows + 1) =
      s.decMatrix.take s.dec.rows ++ [packetVector s.dec.n.toNat s.ibuf] := by
    rw [State.matrixWithPacket, List.take_add_one, List.take_set_of_le le_rfl,
      List.getElem?_set_self ((decMatrix_shape s).1.symm ▸ hfree), Option.toList_some]
  have hperm := List.perm_append_singleton (packetVector s.dec.n.toNat s.ibuf) (s.decMatrix.take s.dec.rows)
  rw [← φ.rowSpace_take (k := s.dec.rows + 1) fun r hr hrows j hj => ?_, htake]
  · exact le_antisymm (φ.rowSpace_mono hperm.subset) (φ.rowSpace_mono hperm.symm.subset)
  · have hrn : r < s.dec.n.toNat := (matrixWithPacket_shape s).1 ▸ hr
    rw [matEntry_matrixWithPacket hfree, if_neg (by omega)]
    exact h.emptyRows hstate r hrn (by omega) j hj

/-- R187: the rank rises by exactly one, or not at all when the packet's vector is a combination of the stored ones. -/
theorem rankOf_matrixWithPacket {s : State} (h : DecInv s) (hstate : s.dec.state = .collecting)
    (hfree : s.dec.rows < s.dec.n.toNat) :
    (IsCombination s.dec.n.toNat (packetVector s.dec.n.toNat s.ibuf) (s.decMatrix.take s.dec.rows) →
      rankOf s.dec.n.toNat s.matrixWithPacket = s.dec.rank) ∧
    (¬ IsCombination s.dec.n.toNat (packetVector s.dec.n.toNat s.ibuf) (s.decMatrix.take s.dec.rows) →
      rankOf s.dec.n.toNat s.matrixWithPacket = s.dec.rank + 1) := by
  obtain ⟨K, _, ⟨φ⟩⟩ := exists_fieldCopy
  have hstored : φ.rowSpace s.dec.n.toNat (s.decMatrix.take s.dec.rows) = φ.rowSpace s.dec.n.toNat s.decMatrix :=
    φ.rowSpace_take fun r hr => h.emptyRows hstate r ((decMatrix_shape s).1 ▸ hr)
  rw [rankOf_eq_finrank φ (matrixWithPacket_shape s), φ.rowSpace_matrixWithPacket h hstate hfree, h.rankStored hstate,
    rankOf_eq_finrank φ (decMatrix_shape s), ← hstored]
  exact ⟨fun hcomb => by rw [φ.rowSpace_cons_of_isCombination hcomb], fun hnew => φ.finrank_rowSpace_cons hnew⟩

/-- Settles O43: RESULT[1] compares the ranks, and the rank is the dimension of the row space. -/
theorem innovativeMeansNotACombination : Obligations.InnovativeMeansNotACombination := by
  intro s h ha
  obtain ⟨hbit0, hbit1⟩ := processResult_bits s.dec.rank (acceptPacket s)
  obtain ⟨hsame, hrises⟩ := rankOf_matrixWithPacket h (ha.collecting h) (ha.free h)
  refine ⟨_, congrArg Host.Outcome.next (decProcess_of_accepted ha), hbit0, ?_⟩
  rw [ok_result, ok_dec, hbit1, acceptPacket_rank_eq h ha]
  by_cases hcomb : IsCombination s.dec.n.toNat (packetVector s.dec.n.toNat s.ibuf) (s.decMatrix.take s.dec.rows)
  · simp [hcomb, hsame hcomb]
  · simp [hcomb, hrises hcomb]

/-! ### The source packets (41_encoder.md R163, 42_decoder.md R194, R195) -/

/-- The stored rows and the packet are combinations of the source packets, row by row. -/
theorem matEntry_payloadsWithPacket_of_sources {s : State} {x : List (List Byte)}
    (hfree : s.dec.rows < s.dec.n.toNat) (hstored : FromSources s x) (hpacket : PacketFromSources s x) {r j : Nat}
    (hr : r < s.dec.rows + 1) (hj : j < s.dec.p.toNat) :
    matEntry s.payloadsWithPacket r j =
      xorSum s.dec.n.toNat fun k => fieldProduct (matEntry s.matrixWithPacket r k) (matEntry x k j) := by
  simp only [matEntry_payloadsWithPacket hfree, matEntry_matrixWithPacket hfree]
  by_cases hrow : r = s.dec.rows
  · simp only [hrow, if_true, packetPayload_getD _ _ hj, hpacket j hj]
  · simp only [hrow, if_false, hstored r (by omega) j hj]

/-- Settles O46: once N rows are stored the source packets solve the stored system, whose solution is unique. -/
theorem decoderRecoversTheSourcePackets : Obligations.DecoderRecoversTheSourcePackets := by
  intro s x h ha hx hstored hpacket
  have hfree := ha.free h
  have hrows {r j : Nat} := matEntry_payloadsWithPacket_of_sources (r := r) (j := j) hfree hstored hpacket
  have hmatrix := storePacket_decMatrix hfree h.nBound
  by_cases hfull : rankOf s.dec.n.toNat s.matrixWithPacket = s.dec.n.toNat
  · have hcomplete : s.dec.n.toNat ≤ s.dec.rows + 1 := by
      have hle := rankOf_storePacket_le h hfree (ha.collecting h)
      rwa [hmatrix, hfull] at hle
    have hsolves : Solves s.dec.n.toNat s.dec.p.toNat s.matrixWithPacket x s.payloadsWithPacket :=
      fun r hr j hj => (hrows (Nat.lt_of_lt_of_le hr hcomplete) hj).symm
    have hunique := (decodeComputesTheUniqueSolution _ _ _ _ (matrixWithPacket_shape s) (payloadsWithPacket_shape s)
      hfull).2 x hx hsolves
    rw [← completeState_eliminated h hfree] at hunique
    refine ⟨_, congrArg Host.Outcome.next (decProcess_of_full h ha hfull),
      fun hc => absurd hc (by decide : DecState.decoded ≠ .collecting), fun _ k hk => ?_,
      (by decide : DecState.decoded ≠ .decodable)⟩
    rw [hunique]
    exact (packetsStored_finishDecode (s := completeState s) h.pBound).1 k hk
  · have hlt := Nat.lt_of_le_of_ne (rankAfter_le _ _ _) hfull
    refine ⟨_, congrArg Host.Outcome.next (decProcess_of_not_full h ha hlt), fun _ r hr j hj => ?_,
      fun hd => absurd hd ha.notDecoded, h.notDecodable⟩
    have hrow := hrows hr hj
    rw [← hmatrix, ← storePacket_decPayloads hfree h.pBound] at hrow
    exact hrow

end Sys2Proof.Machine
end

section

/-! ## How a command ends (60_exceptions.md R220 to R236)

`Ends` lists the ways a command can end, and `effect_ends` shows that there is no other. What a failure leaves
unchanged, and the invariant of STATUS and RESULT, are read off the list. -/

namespace Sys2Proof.Machine

/-- The ways command i, begun in s, can end: with ok(v) on some state, or with a failure that changes nothing more than
R221 allows. A zero divisor also sets ERR.FFZ (R225), and a DEC_GET fails on what its lazy decode left (42_decoder.md
R197). -/
inductive Ends (i : Instr) (s : State) : State → Prop where
  | success (v : Word) (u : State) : Ends i s (ok v u)
  | failure (hi : isProducing i = false) (c : Status) : Ends i s (fail c s)
  | zeroDivisor (hi : isProducing i = false) : Ends i s (failZeroDivisor s)
  | producerFailure (hi : isProducing i = true) (c : Status) : Ends i s (failProducing c s)
  | lazyDecodeFailure {idx : Nat} (hi : i = .decGet idx) (c : Status) : Ends i s (failProducing c (lazyDecode s))

theorem encAdd_ends (idx : Nat) (s : State) : Ends (.encAdd idx) s (encAdd idx s) := by
  unfold encAdd
  split_ifs
  case neg => exact .success _ _
  all_goals exact .failure rfl _

theorem encGenCoded_ends (r : List Byte) (s : State) : Ends .encGenCoded s (encGenCoded r s) := by
  unfold encGenCoded
  split_ifs
  case neg => exact .success _ _
  all_goals exact .producerFailure rfl _

theorem encGenUncoded_ends (idx : Nat) (s : State) : Ends (.encGenUncoded idx) s (encGenUncoded idx s) := by
  unfold encGenUncoded
  split_ifs
  case neg => exact .success _ _
  all_goals exact .producerFailure rfl _

theorem decProcess_ends (s : State) : Ends .decProcess s (decProcess s) := by
  unfold decProcess
  split_ifs
  case neg => exact .success _ _
  all_goals exact .failure rfl _

theorem decGet_ends (idx : Nat) (s : State) : Ends (.decGet idx) s (decGet idx s) := by
  unfold decGet decFetch
  split_ifs
  case pos => exact .producerFailure rfl _
  case neg => exact .success _ _
  all_goals exact .lazyDecodeFailure rfl _

/-- A command with one test fails in one branch of it and succeeds in the other. -/
theorem ends_ite {i : Instr} {s t u : State} {p : Prop} [Decidable p] (ht : Ends i s t) (hu : Ends i s u) :
    Ends i s (if p then t else u) := by
  split
  · exact ht
  · exact hu

/-- R220, R221: every command ends in one of the ways of `Ends`. -/
theorem effect_ends (i : Instr) (s : State) : Ends i s (effect i s) := by
  cases i with
  | ffAdd | ffSub | ffMul => exact .success _ _
  | ffDiv | ffInv => exact ends_ite (.zeroDivisor rfl) (.success _ _)
  | encInit | decInit => exact ends_ite (.success _ _) (.failure rfl _)
  | encComplete | encNext | decCanDecode | decRank | decNext | decState =>
    exact ends_ite (.failure rfl _) (.success _ _)
  | encAdd idx => exact encAdd_ends idx s
  | encGenCoded => exact encGenCoded_ends _ s
  | encGenUncoded idx => exact encGenUncoded_ends idx s
  | decProcess => exact decProcess_ends s
  | decGet idx => exact decGet_ends idx s

@[simp] theorem lazyDecode_enc (s : State) : (lazyDecode s).enc = s.enc := by rw [lazyDecode_frame]

@[simp] theorem lazyDecode_obuf (s : State) : (lazyDecode s).obuf = s.obuf := by rw [lazyDecode_frame]

@[simp] theorem lazyDecode_drawn (s : State) : (lazyDecode s).drawn = s.drawn := by rw [lazyDecode_frame]

/-- Settles O34: of the ways to end, success is excluded by STATUS, and each failure leaves the rest by its frame. -/
theorem failingCommandsLeaveTheUnits : Obligations.FailingCommandsLeaveTheUnits := by
  intro i s t ht hstatus
  rw [exec_eq_next_iff] at ht
  have hends := effect_ends i s
  rw [ht] at hends
  cases hends with
  | success v u => exact absurd (ok_status v u) hstatus
  | failure hi | zeroDivisor hi | producerFailure hi => exact ⟨rfl, rfl, rfl, rfl, by simp [hi], fun _ => rfl⟩
  | lazyDecodeFailure hi c =>
    refine ⟨rfl, lazyDecode_enc s, lazyDecode_obuf s, lazyDecode_drawn s, by simp [hi, isProducing], fun hidle => ?_⟩
    have hstate : s.dec.state ≠ .decodable := hidle.resolve_left fun hne => hne _ hi
    rw [failProducing_dec, lazyDecode_of_ne_decodable hstate]

/-- Settles O35: the codes of each command are those of `effect_status_mem`. -/
theorem commandsEndWithTheirCodes : Obligations.CommandsEndWithTheirCodes := by
  intro i s t ht
  rw [exec_eq_next_iff] at ht
  exact ht ▸ List.mem_cons.1 (effect_status_mem i s)

/-! ### The status invariant -/

/-- A failure meets the status invariant whatever state it ends on. -/
theorem statusInv_fail (c : Status) (s : State) : StatusInv (fail c s) where
  code := c.code_mem
  result := fun _ => rfl

theorem statusInv_ok (v : Word) (s : State) : StatusInv (ok v s) where
  code := Status.code_mem .ok
  result := fun h => absurd rfl h

theorem statusInv_resetCore (s : State) : StatusInv (resetCore s) where
  code := Status.code_mem .ok
  result := fun _ => rfl

/-- The status invariant is about STATUS and RESULT only. -/
theorem StatusInv.congr {s t : State} (h : StatusInv s) (hstatus : t.status = s.status)
    (hresult : t.result = s.result) : StatusInv t where
  code := hstatus ▸ h.code
  result := hstatus ▸ hresult ▸ h.result

/-- However a command ends, it sets STATUS and RESULT afresh, so the invariant needs nothing of the state before. -/
theorem Ends.statusInv {i : Instr} {s t : State} (h : Ends i s t) : StatusInv t := by
  cases h with
  | success v u => exact statusInv_ok v u
  | failure | zeroDivisor | producerFailure | lazyDecodeFailure => exact statusInv_fail _ _

/-- Settles O56: only commands, illegal words and resets write STATUS or RESULT, and each ends in the invariant. -/
theorem stepKeepsTheStatusInvariant : Obligations.StepKeepsTheStatusInvariant := fun _ _ hs ht =>
  step_keeps (Inv := StatusInv) (fun _ _ _ _ _ h => h.congr rfl rfl) (fun _ _ _ h _ => h.congr rfl rfl)
    (fun s _ => statusInv_fail .errIllegal s) (fun _ _ => statusInv_resetCore _)
    (fun i s _ => (effect_ends i s).statusInv) hs ht

/-! ### Every step answers -/

/-- R95, R96: a legal and an illegal word both answer a next state. -/
theorem exists_runCommand_eq_next (v : Word) (s : State) : ∃ t, runCommand v s = .next t := by
  unfold runCommand
  split
  case h_1 i _ => exact ⟨_, exec_eq_next_effect i s⟩
  case h_2 => exact ⟨_, rfl⟩

theorem exists_takeEvent_eq_next (e : HostEvent) (s : State) : ∃ t, takeEvent e s = .next t := by
  match e with
  | .access (.writeReg 0 v) => exact exists_runCommand_eq_next v _
  | .access (.writeReg (_ + 1) _) | .access (.readReg _) | .access (.writeIBuf _ _) | .access (.readIBuf _)
  | .access (.readOBuf _) | .reset => exact ⟨_, rfl⟩

/-- Settles O13: an idle step, each host event and each command answer a next state. -/
theorem everyStepAnswersANextState : Obligations.EveryStepAnswersANextState := by
  refine ⟨fun s => ?_, fun i s => ⟨_, exec_eq_next_effect i s⟩⟩
  match hp : s.pending with
  | [] => exact ⟨_, step_of_idle hp⟩
  | e :: rest =>
    rw [step_of_event hp]
    exact exists_takeEvent_eq_next e _

/-- Settles O8: `step_of_idle`, for every state. -/
theorem idleCoreHoldsItsState : Obligations.IdleCoreHoldsItsState := fun _ => step_of_idle

end Sys2Proof.Machine
end
